-- ==== Sys2Proof/Word.lean ====
section
/-! DEFINITION. The plain data types of the engine: bytes, the 32-bit control word, the 64-bit scalar, buffers of bytes in
index order (byte 0 least significant) and register numbers (spec/00_scope.md rules R9, R13; spec/10_state.md rule R20). -/

namespace Sys2Proof

/-- One unsigned 8-bit value (00_scope.md section 7.1). -/
abbrev Byte := BitVec 8

/-- The 32-bit control word `ctl` of a command (30_encoding.md rule R60). -/
abbrev CtlWord := BitVec 32

/-- A 64-bit unsigned scalar: the operand `opnd`, the result `res` (30_encoding.md rules R60, R61). -/
abbrev Scalar := BitVec 64

/-- A buffer: its bytes in index order, index 0 first and least significant (00_scope.md rule R13). That a buffer has exactly
`N` bytes is `Buffer.hasLength` of WellFormed.lean, an invariant of the machine and not part of the type. -/
abbrev Buffer := List Byte

/-- The number of buffer registers, `NREG` (00_scope.md rule R8). -/
abbrev nreg : Nat := 16

/-- A register number 0 .. 15: a 4-bit field has no out-of-range value (10_state.md rules R20, R22). -/
abbrev Reg := Fin nreg

end Sys2Proof
end

