-- ==== Sys2Proof/Config.lean ====
section
/-! DEFINITION. The build-time parameters `N` and `NATIVE` (spec/00_scope.md rules R5, R6, R7), which the spec leaves OPEN
(spec/92_eei_decisions.md P1, P2). Log entry 1. -/

namespace Sys2Proof

/-- One of the two byte orders (00_scope.md rule R7; 90_conflicts.md C2: two orders, three names). -/
inductive Endian where
  | little
  | big
deriving DecidableEq, Repr, Inhabited

/-- The straps of one engine. `top` is `N - 1`, the index of the most significant byte, so that `1 <= N <= 2^32 - 1`
(00_scope.md rule R5) holds by the type and no statement needs it as a premise. -/
structure Config where
  /-- `N - 1`. -/
  top : Fin 4294967295
  /-- `NATIVE`, the host's byte order. -/
  native : Endian
deriving DecidableEq, Repr, Inhabited

/-- `N`, the number of bytes in every buffer register (00_scope.md rule R5). -/
def Config.n (c : Config) : Nat := c.top.val + 1

/-- `W = 8*N`, the number of bits in every buffer register (00_scope.md rule R6). -/
def Config.w (c : Config) : Nat := 8 * c.n

/-- The straps of the engine that `Machine.State.reset` describes. No body: nothing in Lean can read a value out of it, so
whatever is proved of it holds for every `N` and both byte orders. DESIGN CHOICE (log entry 1), safe. -/
opaque Config.straps : Config

end Sys2Proof
end

