-- ==== Sys2Proof/Syntax.lean ====
section
/-! DEFINITION. The 40 commands of the engine as syntax (spec/30_encoding.md rule R68, spec/opcode_table.json), one
constructor a row, its arguments the live fields of the control word (rule R78). The scalar operand `opnd` and the data input
`din` come with the command on the port (rule R60) and are no part of the control word. -/

namespace Sys2Proof

/-- The integer width `sz` that the code `szc` selects (30_encoding.md rule R66). -/
inductive Width where
  | w1
  | w2
  | w4
  | w8
deriving DecidableEq, Repr

/-- `sz`, the width in bytes (30_encoding.md rule R66). -/
def Width.bytes : Width → Nat
  | .w1 => 1
  | .w2 => 2
  | .w4 => 4
  | .w8 => 8

/-- The byte-order parameter `ord` that the code `ordc` selects; code 3 is reserved and names nothing
(30_encoding.md rule R67). `native` is a third name, not a third order (90_conflicts.md C2). -/
inductive OrderName where
  | little
  | big
  | native
deriving DecidableEq, Repr

/-- A command's control word, decoded: one constructor for each row of spec/opcode_table.json. -/
inductive Instr where
  -- 40_construction.md
  | zero (rd : Reg)
  | fill (rd : Reg) (imm8 : Byte)
  | lda (rd : Reg)
  | ldp (rd : Reg)
  | ldi (rd : Reg) (sz : Width)
  | mov (rd rs1 : Reg)
  -- 41_element_access.md
  | getb (rs1 : Reg)
  | putb (rd : Reg) (imm8 : Byte)
  | getbu (rs1 : Reg)
  | putbu (rd : Reg) (imm8 : Byte)
  | rda (rs1 : Reg)
  -- 42_bitwise_compare.md
  | and (rd rs1 rs2 : Reg)
  | or (rd rs1 rs2 : Reg)
  | xor (rd rs1 rs2 : Reg)
  | not (rd rs1 : Reg)
  | cmpeq (rs1 rs2 : Reg)
  | cmplt (rs1 rs2 : Reg)
  -- 43_shift.md, 44_rotate.md
  | shl (rd rs1 : Reg)
  | shr (rd rs1 : Reg)
  | rol (rd rs1 : Reg)
  | ror (rd rs1 : Reg)
  -- 45_bit_mutation.md
  | setbit (rd : Reg)
  | clrbit (rd : Reg)
  | tglbit (rd : Reg)
  | tstbit (rs1 : Reg)
  | popcnt (rs1 : Reg)
  -- 46_integer.md
  | toint (rs1 : Reg) (sz : Width)
  -- 47_endian.md
  | rev (rd rs1 : Reg)
  | tole (rd rs1 : Reg)
  | tobe (rd rs1 : Reg)
  | tonet (rd rs1 : Reg)
  | fromle (rd rs1 : Reg)
  | frombe (rd rs1 : Reg)
  | fromnet (rd rs1 : Reg)
  | toend (rd rs1 : Reg) (ord : OrderName)
  | fromend (rd rs1 : Reg) (ord : OrderName)
  | normle (rd : Reg)
  | normbe (rd : Reg)
  | tointe (rs1 : Reg) (sz : Width) (ord : OrderName)
  | ldie (rd : Reg) (sz : Width) (ord : OrderName)
deriving DecidableEq, Repr

/-- The command's name in spec/opcode_table.json. -/
def Instr.mnemonic : Instr → String
  | .zero _ => "ZERO"
  | .fill _ _ => "FILL"
  | .lda _ => "LDA"
  | .ldp _ => "LDP"
  | .ldi _ _ => "LDI"
  | .mov _ _ => "MOV"
  | .getb _ => "GETB"
  | .putb _ _ => "PUTB"
  | .getbu _ => "GETBU"
  | .putbu _ _ => "PUTBU"
  | .rda _ => "RDA"
  | .and _ _ _ => "AND"
  | .or _ _ _ => "OR"
  | .xor _ _ _ => "XOR"
  | .not _ _ => "NOT"
  | .cmpeq _ _ => "CMPEQ"
  | .cmplt _ _ => "CMPLT"
  | .shl _ _ => "SHL"
  | .shr _ _ => "SHR"
  | .rol _ _ => "ROL"
  | .ror _ _ => "ROR"
  | .setbit _ => "SETBIT"
  | .clrbit _ => "CLRBIT"
  | .tglbit _ => "TGLBIT"
  | .tstbit _ => "TSTBIT"
  | .popcnt _ => "POPCNT"
  | .toint _ _ => "TOINT"
  | .rev _ _ => "REV"
  | .tole _ _ => "TOLE"
  | .tobe _ _ => "TOBE"
  | .tonet _ _ => "TONET"
  | .fromle _ _ => "FROMLE"
  | .frombe _ _ => "FROMBE"
  | .fromnet _ _ => "FROMNET"
  | .toend _ _ _ => "TOEND"
  | .fromend _ _ _ => "FROMEND"
  | .normle _ => "NORMLE"
  | .normbe _ => "NORMBE"
  | .tointe _ _ _ => "TOINTE"
  | .ldie _ _ _ => "LDIE"

/-- The register a command writes: the "D" column of 10_state.md rule R23. -/
def Instr.dest : Instr → Option Reg
  | .zero rd | .fill rd _ | .lda rd | .ldp rd | .ldi rd _ | .mov rd _ => some rd
  | .getb _ | .getbu _ | .rda _ => none
  | .putb rd _ | .putbu rd _ => some rd
  | .and rd _ _ | .or rd _ _ | .xor rd _ _ | .not rd _ => some rd
  | .cmpeq _ _ | .cmplt _ _ => none
  | .shl rd _ | .shr rd _ | .rol rd _ | .ror rd _ => some rd
  | .setbit rd | .clrbit rd | .tglbit rd => some rd
  | .tstbit _ | .popcnt _ | .toint _ _ => none
  | .rev rd _ | .tole rd _ | .tobe rd _ | .tonet rd _ | .fromle rd _ | .frombe rd _ | .fromnet rd _ => some rd
  | .toend rd _ _ | .fromend rd _ _ => some rd
  | .normle rd | .normbe rd => some rd
  | .tointe _ _ _ => none
  | .ldie rd _ _ => some rd

/-- The registers a command reads: the "S" marks of 10_state.md rule R23 (an in-place command reads its `rd`). -/
def Instr.sources : Instr → List Reg
  | .zero _ | .fill _ _ | .lda _ | .ldp _ | .ldi _ _ => []
  | .mov _ rs1 => [rs1]
  | .getb rs1 | .getbu rs1 | .rda rs1 => [rs1]
  | .putb rd _ | .putbu rd _ => [rd]
  | .and _ rs1 rs2 | .or _ rs1 rs2 | .xor _ rs1 rs2 => [rs1, rs2]
  | .not _ rs1 => [rs1]
  | .cmpeq rs1 rs2 | .cmplt rs1 rs2 => [rs1, rs2]
  | .shl _ rs1 | .shr _ rs1 | .rol _ rs1 | .ror _ rs1 => [rs1]
  | .setbit rd | .clrbit rd | .tglbit rd => [rd]
  | .tstbit rs1 | .popcnt rs1 | .toint rs1 _ => [rs1]
  | .rev _ rs1 | .tole _ rs1 | .tobe _ rs1 | .tonet _ rs1 | .fromle _ rs1 | .frombe _ rs1 | .fromnet _ rs1 => [rs1]
  | .toend _ rs1 _ | .fromend _ rs1 _ => [rs1]
  | .normle rd | .normbe rd => [rd]
  | .tointe rs1 _ _ => [rs1]
  | .ldie _ _ _ => []

/-- Whether a command reads the scalar operand `opnd` (30_encoding.md rules R68, R71). -/
def Instr.readsOpnd : Instr → Bool
  | .ldp _ | .ldi _ _ => true
  | .getb _ | .putb _ _ | .getbu _ | .putbu _ _ => true
  | .shl _ _ | .shr _ _ | .rol _ _ | .ror _ _ => true
  | .setbit _ | .clrbit _ | .tglbit _ | .tstbit _ => true
  | .ldie _ _ _ => true
  | .zero _ | .fill _ _ | .lda _ | .mov _ _ | .rda _ => false
  | .and _ _ _ | .or _ _ _ | .xor _ _ _ | .not _ _ | .cmpeq _ _ | .cmplt _ _ => false
  | .popcnt _ | .toint _ _ => false
  | .rev _ _ | .tole _ _ | .tobe _ _ | .tonet _ _ | .fromle _ _ | .frombe _ _ | .fromnet _ _ => false
  | .toend _ _ _ | .fromend _ _ _ | .normle _ | .normbe _ | .tointe _ _ _ => false

/-- Whether a command reads the data input `din`: LDA and LDP only (30_encoding.md rules R60, R71). -/
def Instr.readsDin : Instr → Bool
  | .lda _ | .ldp _ => true
  | .zero _ | .fill _ _ | .ldi _ _ | .mov _ _ => false
  | .getb _ | .putb _ _ | .getbu _ | .putbu _ _ | .rda _ => false
  | .and _ _ _ | .or _ _ _ | .xor _ _ _ | .not _ _ | .cmpeq _ _ | .cmplt _ _ => false
  | .shl _ _ | .shr _ _ | .rol _ _ | .ror _ _ => false
  | .setbit _ | .clrbit _ | .tglbit _ | .tstbit _ | .popcnt _ | .toint _ _ => false
  | .rev _ _ | .tole _ _ | .tobe _ _ | .tonet _ _ | .fromle _ _ | .frombe _ _ | .fromnet _ _ => false
  | .toend _ _ _ | .fromend _ _ _ | .normle _ | .normbe _ | .tointe _ _ _ | .ldie _ _ _ => false

/-- Whether what a command does depends on `NATIVE`: the commands of 47_endian.md other than REV (20_memory.md rule R45). -/
def Instr.readsNative : Instr → Bool
  | .tole _ _ | .tobe _ _ | .tonet _ _ | .fromle _ _ | .frombe _ _ | .fromnet _ _ => true
  | .toend _ _ _ | .fromend _ _ _ | .normle _ | .normbe _ | .tointe _ _ _ | .ldie _ _ _ => true
  | .zero _ | .fill _ _ | .lda _ | .ldp _ | .ldi _ _ | .mov _ _ => false
  | .getb _ | .putb _ _ | .getbu _ | .putbu _ _ | .rda _ => false
  | .and _ _ _ | .or _ _ _ | .xor _ _ _ | .not _ _ | .cmpeq _ _ | .cmplt _ _ => false
  | .shl _ _ | .shr _ _ | .rol _ _ | .ror _ _ => false
  | .setbit _ | .clrbit _ | .tglbit _ | .tstbit _ | .popcnt _ | .toint _ _ | .rev _ _ => false

/-- One command as the host presents it on the command port (30_encoding.md rule R60): the control word, the scalar operand and
the data input, `din` as its lanes in index order (20_memory.md rule R42). -/
structure Command where
  ctl : CtlWord
  opnd : Scalar
  din : Buffer
deriving DecidableEq, Repr

/-- The eight pseudo-instructions of 30_encoding.md rule R76; none has an encoding of its own. -/
inductive Pseudo where
  | shleq (bd : Reg)
  | shreq (bd : Reg)
  | roleq (bd : Reg)
  | roreq (bd : Reg)
  | andeq (bd bs : Reg)
  | oreq (bd bs : Reg)
  | xoreq (bd bs : Reg)
  | noteq (bd : Reg)
deriving DecidableEq, Repr

/-- The one command a pseudo-instruction expands to (30_encoding.md rule R76). -/
def Pseudo.expand : Pseudo → Instr
  | .shleq bd => .shl bd bd
  | .shreq bd => .shr bd bd
  | .roleq bd => .rol bd bd
  | .roreq bd => .ror bd bd
  | .andeq bd bs => .and bd bd bs
  | .oreq bd bs => .or bd bd bs
  | .xoreq bd bs => .xor bd bd bs
  | .noteq bd => .not bd bd

end Sys2Proof
end

