-- ==== Sys2Proof/WellFormed.lean ====
section
/-! DEFINITION. What a well-formed input to the engine is. An `Instr` is well formed by its types: a register number is below 16,
a width is one of four, a byte order one of three, so no ill-formed instruction can be written down (spec/30_encoding.md rules
R66, R67, R69). What remains to check is the length of a buffer: every buffer, on a port or in a register, has exactly `N`
bytes (spec/10_state.md rules R20, R21; spec/20_memory.md rule R42). -/

namespace Sys2Proof

/-- A buffer of an engine with straps `c` has exactly `N` bytes (10_state.md rule R20). -/
def Buffer.hasLength (c : Config) (x : Buffer) : Bool := x.length == c.n

/-- A command that the port of an engine with straps `c` can carry: `din` is one buffer, any value of `ctl` and `opnd`
(30_encoding.md rule R60; 70_reset_and_hazards.md rule R330). -/
def Command.wellFormed (c : Config) (cmd : Command) : Bool := Buffer.hasLength c cmd.din

end Sys2Proof
end

