-- ==== Sys2Proof/Decode.lean ====
section
/-! DEFINITION. From a control word to an instruction and back: the field layout (spec/30_encoding.md rule R65), the opcode map
(rule R68), the rules that make a word illegal (rules R69, R72), the encoder (rule R77) and the table of match and mask. -/

namespace Sys2Proof

/-- Why a control word is illegal: the three cases of 30_encoding.md rule R72. The reason is the model's name for the case; the
engine records none (60_exceptions.md rule R307). -/
inductive Illegal where
  /-- `ctl[7:0]` is none of the 40 opcodes (rule R72 item 1). -/
  | unassignedOpcode
  /-- The opcode is assigned and a field it does not use is not zero (rule R72 item 2, rule R69). -/
  | nonLiveField
  /-- `ordc` is the reserved code 3 in a command that reads it (rule R72 item 3, rule R67). -/
  | reservedOrder
deriving DecidableEq, Repr

/-- The seven fields of the control word (30_encoding.md rule R65). -/
structure Fields where
  opcode : BitVec 8
  rd : BitVec 4
  rs1 : BitVec 4
  rs2 : BitVec 4
  szc : BitVec 2
  ordc : BitVec 2
  imm8 : BitVec 8
deriving DecidableEq, Repr

/-- All fields zero. -/
def Fields.blank : Fields := ⟨0, 0, 0, 0, 0, 0, 0⟩

/-- The fields of a control word, each from its bits (30_encoding.md rule R65). -/
def Fields.ofWord (w : CtlWord) : Fields where
  opcode := w.extractLsb' 0 8
  rd := w.extractLsb' 8 4
  rs1 := w.extractLsb' 12 4
  rs2 := w.extractLsb' 16 4
  szc := w.extractLsb' 20 2
  ordc := w.extractLsb' 22 2
  imm8 := w.extractLsb' 24 8

/-- The control word of the fields, `imm8` in the highest bits and `opcode` in the lowest (30_encoding.md rule R65). -/
def Fields.toWord (f : Fields) : CtlWord :=
  f.imm8 ++ f.ordc ++ f.szc ++ f.rs2 ++ f.rs1 ++ f.rd ++ f.opcode

/-- The register a 4-bit field names (10_state.md rule R22). -/
def regOfCode (v : BitVec 4) : Reg := v.toFin

/-- The 4-bit field that names a register. -/
def Reg.code (r : Reg) : BitVec 4 := BitVec.ofFin r

/-- `sz` from `szc` (30_encoding.md rule R66). All four codes are legal. -/
def Width.ofCode (v : BitVec 2) : Width :=
  if v = 0 then .w1 else if v = 1 then .w2 else if v = 2 then .w4 else .w8

/-- `szc` from `sz` (30_encoding.md rule R66). -/
def Width.code : Width → BitVec 2
  | .w1 => 0
  | .w2 => 1
  | .w4 => 2
  | .w8 => 3

/-- `ord` from `ordc`; code 3 is reserved (30_encoding.md rule R67). -/
def OrderName.ofCode (v : BitVec 2) : Option OrderName :=
  if v = 0 then some .little else if v = 1 then some .big else if v = 2 then some .native else none

/-- `ordc` from `ord` (30_encoding.md rule R67). -/
def OrderName.code : OrderName → BitVec 2
  | .little => 0
  | .big => 1
  | .native => 2

/-- The register that field `rd` names. -/
def Fields.rdReg (f : Fields) : Reg := regOfCode f.rd

/-- The register that field `rs1` names. -/
def Fields.rs1Reg (f : Fields) : Reg := regOfCode f.rs1

/-- The register that field `rs2` names. -/
def Fields.rs2Reg (f : Fields) : Reg := regOfCode f.rs2

/-! The eleven formats (30_encoding.md rule R78): each refuses a word with a non-zero field that is not live (rule R69), then
hands the live fields to the command's constructor. -/

/-- Format D. -/
def Fields.formatD (f : Fields) (k : Reg → Instr) : Except Illegal Instr :=
  if f.rs1 = 0 ∧ f.rs2 = 0 ∧ f.szc = 0 ∧ f.ordc = 0 ∧ f.imm8 = 0 then .ok (k f.rdReg) else .error .nonLiveField

/-- Format DB. -/
def Fields.formatDB (f : Fields) (k : Reg → Byte → Instr) : Except Illegal Instr :=
  if f.rs1 = 0 ∧ f.rs2 = 0 ∧ f.szc = 0 ∧ f.ordc = 0 then .ok (k f.rdReg f.imm8) else .error .nonLiveField

/-- Format DZ. -/
def Fields.formatDZ (f : Fields) (k : Reg → Width → Instr) : Except Illegal Instr :=
  if f.rs1 = 0 ∧ f.rs2 = 0 ∧ f.ordc = 0 ∧ f.imm8 = 0 then .ok (k f.rdReg (Width.ofCode f.szc)) else .error .nonLiveField

/-- Format DS. -/
def Fields.formatDS (f : Fields) (k : Reg → Reg → Instr) : Except Illegal Instr :=
  if f.rs2 = 0 ∧ f.szc = 0 ∧ f.ordc = 0 ∧ f.imm8 = 0 then .ok (k f.rdReg f.rs1Reg) else .error .nonLiveField

/-- Format DST. -/
def Fields.formatDST (f : Fields) (k : Reg → Reg → Reg → Instr) : Except Illegal Instr :=
  if f.szc = 0 ∧ f.ordc = 0 ∧ f.imm8 = 0 then .ok (k f.rdReg f.rs1Reg f.rs2Reg) else .error .nonLiveField

/-- Format S. -/
def Fields.formatS (f : Fields) (k : Reg → Instr) : Except Illegal Instr :=
  if f.rd = 0 ∧ f.rs2 = 0 ∧ f.szc = 0 ∧ f.ordc = 0 ∧ f.imm8 = 0 then .ok (k f.rs1Reg) else .error .nonLiveField

/-- Format ST. -/
def Fields.formatST (f : Fields) (k : Reg → Reg → Instr) : Except Illegal Instr :=
  if f.rd = 0 ∧ f.szc = 0 ∧ f.ordc = 0 ∧ f.imm8 = 0 then .ok (k f.rs1Reg f.rs2Reg) else .error .nonLiveField

/-- Format SZ. -/
def Fields.formatSZ (f : Fields) (k : Reg → Width → Instr) : Except Illegal Instr :=
  if f.rd = 0 ∧ f.rs2 = 0 ∧ f.ordc = 0 ∧ f.imm8 = 0 then .ok (k f.rs1Reg (Width.ofCode f.szc)) else .error .nonLiveField

/-- Format DSE. -/
def Fields.formatDSE (f : Fields) (k : Reg → Reg → OrderName → Instr) : Except Illegal Instr :=
  if f.rs2 = 0 ∧ f.szc = 0 ∧ f.imm8 = 0 then
    match OrderName.ofCode f.ordc with
    | some o => .ok (k f.rdReg f.rs1Reg o)
    | none => .error .reservedOrder
  else .error .nonLiveField

/-- Format SZE. -/
def Fields.formatSZE (f : Fields) (k : Reg → Width → OrderName → Instr) : Except Illegal Instr :=
  if f.rd = 0 ∧ f.rs2 = 0 ∧ f.imm8 = 0 then
    match OrderName.ofCode f.ordc with
    | some o => .ok (k f.rs1Reg (Width.ofCode f.szc) o)
    | none => .error .reservedOrder
  else .error .nonLiveField

/-- Format DZE. -/
def Fields.formatDZE (f : Fields) (k : Reg → Width → OrderName → Instr) : Except Illegal Instr :=
  if f.rs1 = 0 ∧ f.rs2 = 0 ∧ f.imm8 = 0 then
    match OrderName.ofCode f.ordc with
    | some o => .ok (k f.rdReg (Width.ofCode f.szc) o)
    | none => .error .reservedOrder
  else .error .nonLiveField

/-- The command a control word selects, or why it is illegal: total on all `2^32` words (30_encoding.md rules R70, R72). -/
def decodeFields (f : Fields) : Except Illegal Instr :=
  match f.opcode.toNat with
  | 0x01 => f.formatD .zero
  | 0x02 => f.formatDB .fill
  | 0x03 => f.formatD .lda
  | 0x04 => f.formatD .ldp
  | 0x05 => f.formatDZ .ldi
  | 0x06 => f.formatDS .mov
  | 0x10 => f.formatS .getb
  | 0x11 => f.formatDB .putb
  | 0x12 => f.formatS .getbu
  | 0x13 => f.formatDB .putbu
  | 0x14 => f.formatS .rda
  | 0x20 => f.formatDST .and
  | 0x21 => f.formatDST .or
  | 0x22 => f.formatDST .xor
  | 0x23 => f.formatDS .not
  | 0x24 => f.formatST .cmpeq
  | 0x25 => f.formatST .cmplt
  | 0x30 => f.formatDS .shl
  | 0x31 => f.formatDS .shr
  | 0x32 => f.formatDS .rol
  | 0x33 => f.formatDS .ror
  | 0x40 => f.formatD .setbit
  | 0x41 => f.formatD .clrbit
  | 0x42 => f.formatD .tglbit
  | 0x43 => f.formatS .tstbit
  | 0x44 => f.formatS .popcnt
  | 0x50 => f.formatSZ .toint
  | 0x60 => f.formatDS .rev
  | 0x61 => f.formatDS .tole
  | 0x62 => f.formatDS .tobe
  | 0x63 => f.formatDS .tonet
  | 0x64 => f.formatDS .fromle
  | 0x65 => f.formatDS .frombe
  | 0x66 => f.formatDS .fromnet
  | 0x67 => f.formatDSE .toend
  | 0x68 => f.formatDSE .fromend
  | 0x69 => f.formatD .normle
  | 0x6A => f.formatD .normbe
  | 0x6B => f.formatSZE .tointe
  | 0x6C => f.formatDZE .ldie
  | _ => .error .unassignedOpcode

/-- Decoding of one control word (30_encoding.md rule R70). -/
def decode (w : CtlWord) : Except Illegal Instr := decodeFields (Fields.ofWord w)

/-- The fields of a command: its opcode, its live fields, every other field zero (30_encoding.md rules R68, R69). -/
def fieldsOf : Instr → Fields
  | .zero rd => { Fields.blank with opcode := 0x01#8, rd := Reg.code rd }
  | .fill rd imm8 => { Fields.blank with opcode := 0x02#8, rd := Reg.code rd, imm8 := imm8 }
  | .lda rd => { Fields.blank with opcode := 0x03#8, rd := Reg.code rd }
  | .ldp rd => { Fields.blank with opcode := 0x04#8, rd := Reg.code rd }
  | .ldi rd sz => { Fields.blank with opcode := 0x05#8, rd := Reg.code rd, szc := Width.code sz }
  | .mov rd rs1 => { Fields.blank with opcode := 0x06#8, rd := Reg.code rd, rs1 := Reg.code rs1 }
  | .getb rs1 => { Fields.blank with opcode := 0x10#8, rs1 := Reg.code rs1 }
  | .putb rd imm8 => { Fields.blank with opcode := 0x11#8, rd := Reg.code rd, imm8 := imm8 }
  | .getbu rs1 => { Fields.blank with opcode := 0x12#8, rs1 := Reg.code rs1 }
  | .putbu rd imm8 => { Fields.blank with opcode := 0x13#8, rd := Reg.code rd, imm8 := imm8 }
  | .rda rs1 => { Fields.blank with opcode := 0x14#8, rs1 := Reg.code rs1 }
  | .and rd rs1 rs2 => { Fields.blank with opcode := 0x20#8, rd := Reg.code rd, rs1 := Reg.code rs1, rs2 := Reg.code rs2 }
  | .or rd rs1 rs2 => { Fields.blank with opcode := 0x21#8, rd := Reg.code rd, rs1 := Reg.code rs1, rs2 := Reg.code rs2 }
  | .xor rd rs1 rs2 => { Fields.blank with opcode := 0x22#8, rd := Reg.code rd, rs1 := Reg.code rs1, rs2 := Reg.code rs2 }
  | .not rd rs1 => { Fields.blank with opcode := 0x23#8, rd := Reg.code rd, rs1 := Reg.code rs1 }
  | .cmpeq rs1 rs2 => { Fields.blank with opcode := 0x24#8, rs1 := Reg.code rs1, rs2 := Reg.code rs2 }
  | .cmplt rs1 rs2 => { Fields.blank with opcode := 0x25#8, rs1 := Reg.code rs1, rs2 := Reg.code rs2 }
  | .shl rd rs1 => { Fields.blank with opcode := 0x30#8, rd := Reg.code rd, rs1 := Reg.code rs1 }
  | .shr rd rs1 => { Fields.blank with opcode := 0x31#8, rd := Reg.code rd, rs1 := Reg.code rs1 }
  | .rol rd rs1 => { Fields.blank with opcode := 0x32#8, rd := Reg.code rd, rs1 := Reg.code rs1 }
  | .ror rd rs1 => { Fields.blank with opcode := 0x33#8, rd := Reg.code rd, rs1 := Reg.code rs1 }
  | .setbit rd => { Fields.blank with opcode := 0x40#8, rd := Reg.code rd }
  | .clrbit rd => { Fields.blank with opcode := 0x41#8, rd := Reg.code rd }
  | .tglbit rd => { Fields.blank with opcode := 0x42#8, rd := Reg.code rd }
  | .tstbit rs1 => { Fields.blank with opcode := 0x43#8, rs1 := Reg.code rs1 }
  | .popcnt rs1 => { Fields.blank with opcode := 0x44#8, rs1 := Reg.code rs1 }
  | .toint rs1 sz => { Fields.blank with opcode := 0x50#8, rs1 := Reg.code rs1, szc := Width.code sz }
  | .rev rd rs1 => { Fields.blank with opcode := 0x60#8, rd := Reg.code rd, rs1 := Reg.code rs1 }
  | .tole rd rs1 => { Fields.blank with opcode := 0x61#8, rd := Reg.code rd, rs1 := Reg.code rs1 }
  | .tobe rd rs1 => { Fields.blank with opcode := 0x62#8, rd := Reg.code rd, rs1 := Reg.code rs1 }
  | .tonet rd rs1 => { Fields.blank with opcode := 0x63#8, rd := Reg.code rd, rs1 := Reg.code rs1 }
  | .fromle rd rs1 => { Fields.blank with opcode := 0x64#8, rd := Reg.code rd, rs1 := Reg.code rs1 }
  | .frombe rd rs1 => { Fields.blank with opcode := 0x65#8, rd := Reg.code rd, rs1 := Reg.code rs1 }
  | .fromnet rd rs1 => { Fields.blank with opcode := 0x66#8, rd := Reg.code rd, rs1 := Reg.code rs1 }
  | .toend rd rs1 ord => { Fields.blank with opcode := 0x67#8, rd := Reg.code rd, rs1 := Reg.code rs1, ordc := OrderName.code ord }
  | .fromend rd rs1 ord => { Fields.blank with opcode := 0x68#8, rd := Reg.code rd, rs1 := Reg.code rs1, ordc := OrderName.code ord }
  | .normle rd => { Fields.blank with opcode := 0x69#8, rd := Reg.code rd }
  | .normbe rd => { Fields.blank with opcode := 0x6A#8, rd := Reg.code rd }
  | .tointe rs1 sz ord => { Fields.blank with opcode := 0x6B#8, rs1 := Reg.code rs1, szc := Width.code sz, ordc := OrderName.code ord }
  | .ldie rd sz ord => { Fields.blank with opcode := 0x6C#8, rd := Reg.code rd, szc := Width.code sz, ordc := OrderName.code ord }

/-- The control word of a command (30_encoding.md rules R65, R77). -/
def encode (i : Instr) : CtlWord := (fieldsOf i).toWord

/-- The command of one assembler line, its scalar operand and its data lanes (30_encoding.md rule R77): what the command does not
read is presented as zero, lanes not listed are zero. -/
def assemble (c : Config) (i : Instr) (opnd : Scalar) (lanes : Buffer) : Command where
  ctl := encode i
  opnd := if i.readsOpnd then opnd else 0
  din := (List.range c.n).map fun k => if i.readsDin then lanes.getD k 0 else 0

/-- One row of the opcode map (30_encoding.md rule R68): `pattern` and `mask` are the row's match and mask over the 32-bit
control word, `hasOrder` says that the format has the live field `ordc`. -/
structure OpcodeRow where
  mnemonic : String
  opcode : BitVec 8
  pattern : CtlWord
  mask : CtlWord
  hasOrder : Bool
deriving DecidableEq, Repr

/-- The row selects the word (30_encoding.md rules R68, R70). -/
def OpcodeRow.selects (r : OpcodeRow) (w : CtlWord) : Bool :=
  w &&& r.mask == r.pattern && !(r.hasOrder && w.extractLsb' 22 2 == 3#2)

/-- The rows of 40_construction.md. -/
def constructionRows : List OpcodeRow :=
  [⟨"ZERO", 0x01#8, 0x00000001#32, 0xFFFFF0FF#32, false⟩,
   ⟨"FILL", 0x02#8, 0x00000002#32, 0x00FFF0FF#32, false⟩,
   ⟨"LDA", 0x03#8, 0x00000003#32, 0xFFFFF0FF#32, false⟩,
   ⟨"LDP", 0x04#8, 0x00000004#32, 0xFFFFF0FF#32, false⟩,
   ⟨"LDI", 0x05#8, 0x00000005#32, 0xFFCFF0FF#32, false⟩,
   ⟨"MOV", 0x06#8, 0x00000006#32, 0xFFFF00FF#32, false⟩]

/-- The rows of 41_element_access.md. -/
def elementAccessRows : List OpcodeRow :=
  [⟨"GETB", 0x10#8, 0x00000010#32, 0xFFFF0FFF#32, false⟩,
   ⟨"PUTB", 0x11#8, 0x00000011#32, 0x00FFF0FF#32, false⟩,
   ⟨"GETBU", 0x12#8, 0x00000012#32, 0xFFFF0FFF#32, false⟩,
   ⟨"PUTBU", 0x13#8, 0x00000013#32, 0x00FFF0FF#32, false⟩,
   ⟨"RDA", 0x14#8, 0x00000014#32, 0xFFFF0FFF#32, false⟩]

/-- The rows of 42_bitwise_compare.md. -/
def bitwiseRows : List OpcodeRow :=
  [⟨"AND", 0x20#8, 0x00000020#32, 0xFFF000FF#32, false⟩,
   ⟨"OR", 0x21#8, 0x00000021#32, 0xFFF000FF#32, false⟩,
   ⟨"XOR", 0x22#8, 0x00000022#32, 0xFFF000FF#32, false⟩,
   ⟨"NOT", 0x23#8, 0x00000023#32, 0xFFFF00FF#32, false⟩,
   ⟨"CMPEQ", 0x24#8, 0x00000024#32, 0xFFF00FFF#32, false⟩,
   ⟨"CMPLT", 0x25#8, 0x00000025#32, 0xFFF00FFF#32, false⟩]

/-- The rows of 43_shift.md, 44_rotate.md. -/
def shiftRotateRows : List OpcodeRow :=
  [⟨"SHL", 0x30#8, 0x00000030#32, 0xFFFF00FF#32, false⟩,
   ⟨"SHR", 0x31#8, 0x00000031#32, 0xFFFF00FF#32, false⟩,
   ⟨"ROL", 0x32#8, 0x00000032#32, 0xFFFF00FF#32, false⟩,
   ⟨"ROR", 0x33#8, 0x00000033#32, 0xFFFF00FF#32, false⟩]

/-- The rows of 45_bit_mutation.md, 46_integer.md. -/
def bitIntegerRows : List OpcodeRow :=
  [⟨"SETBIT", 0x40#8, 0x00000040#32, 0xFFFFF0FF#32, false⟩,
   ⟨"CLRBIT", 0x41#8, 0x00000041#32, 0xFFFFF0FF#32, false⟩,
   ⟨"TGLBIT", 0x42#8, 0x00000042#32, 0xFFFFF0FF#32, false⟩,
   ⟨"TSTBIT", 0x43#8, 0x00000043#32, 0xFFFF0FFF#32, false⟩,
   ⟨"POPCNT", 0x44#8, 0x00000044#32, 0xFFFF0FFF#32, false⟩,
   ⟨"TOINT", 0x50#8, 0x00000050#32, 0xFFCF0FFF#32, false⟩]

/-- The rows of 47_endian.md. -/
def endianRows : List OpcodeRow :=
  [⟨"REV", 0x60#8, 0x00000060#32, 0xFFFF00FF#32, false⟩,
   ⟨"TOLE", 0x61#8, 0x00000061#32, 0xFFFF00FF#32, false⟩,
   ⟨"TOBE", 0x62#8, 0x00000062#32, 0xFFFF00FF#32, false⟩,
   ⟨"TONET", 0x63#8, 0x00000063#32, 0xFFFF00FF#32, false⟩,
   ⟨"FROMLE", 0x64#8, 0x00000064#32, 0xFFFF00FF#32, false⟩,
   ⟨"FROMBE", 0x65#8, 0x00000065#32, 0xFFFF00FF#32, false⟩,
   ⟨"FROMNET", 0x66#8, 0x00000066#32, 0xFFFF00FF#32, false⟩,
   ⟨"TOEND", 0x67#8, 0x00000067#32, 0xFF3F00FF#32, true⟩,
   ⟨"FROMEND", 0x68#8, 0x00000068#32, 0xFF3F00FF#32, true⟩,
   ⟨"NORMLE", 0x69#8, 0x00000069#32, 0xFFFFF0FF#32, false⟩,
   ⟨"NORMBE", 0x6A#8, 0x0000006A#32, 0xFFFFF0FF#32, false⟩,
   ⟨"TOINTE", 0x6B#8, 0x0000006B#32, 0xFF0F0FFF#32, true⟩,
   ⟨"LDIE", 0x6C#8, 0x0000006C#32, 0xFF0FF0FF#32, true⟩]

/-- The whole table of 30_encoding.md rule R68, in its order. -/
def opcodeTable : List OpcodeRow :=
  constructionRows ++ elementAccessRows ++ bitwiseRows ++ shiftRotateRows ++ bitIntegerRows ++ endianRows

/-- The instruction the decoder reads from a word of spec/opcode_table.json: `w` numbered as the table numbers it. The control
word has 32 bits; bits of `w` at and above `nbits` are taken as zero. -/
def decodeTableWord (nbits w : Nat) : Option Instr :=
  match decode (BitVec.ofNat 32 (w % 2 ^ nbits)) with
  | .ok i => some i
  | .error _ => none

end Sys2Proof
end

