-- ==== Sys2Proof/Machine/State.lean ====
section
/-! DEFINITION. The state of the engine as plain data (spec/10_state.md), what one step can end in, and the state after reset
(spec/10_state.md rule R30). The ports and the reset pin are plain data too: what the host does next, the command being
executed, the responses given (log entries 2, 4, 5). -/

namespace Sys2Proof.Machine

/-- The status of a response (30_encoding.md rule R62). Code 3 is never produced, so it has no constructor. -/
inductive Status where
  | ok
  | illegal
  | rejected
deriving DecidableEq, Repr

/-- The 2-bit code of a status (30_encoding.md rule R62). -/
def Status.code : Status → BitVec 2
  | .ok => 0
  | .illegal => 1
  | .rejected => 2

/-- One response (30_encoding.md rule R61): `dout` as its lanes in index order. -/
structure Response where
  status : Status
  res : Scalar
  dout : Buffer
deriving DecidableEq, Repr

/-- What the host can do to the engine (70_reset_and_hazards.md rule R330): present a command, or assert and release reset. -/
inductive HostEvent where
  | command (c : Command)
  | reset
deriving DecidableEq, Repr

/-- The state. `b`, `flt`, `cause`, `fctl` are all the state the spec gives the engine (10_state.md section 1). `cfg` holds the
straps, which no step writes (log entry 1). `host`, `cmd`, `sent` are the model's own: the ports of 30_encoding.md rules R60,
R61 and the reset pin of rule R64 (log entries 2, 4, 5). -/
structure State where
  /-- The straps `N` and `NATIVE` (00_scope.md rules R5, R7). -/
  cfg : Config
  /-- The buffer registers `b[0]` .. `b[15]` (10_state.md rule R20). -/
  b : Vector Buffer nreg
  /-- The fault flag, one bit (10_state.md rule R24). -/
  flt : Bool
  /-- The cause code, two bits (10_state.md rule R24). -/
  cause : BitVec 2
  /-- The control word of the command that faulted (10_state.md rule R24). -/
  fctl : CtlWord
  /-- What the host does next, oldest first. -/
  host : List HostEvent
  /-- The command sampled at the command port. -/
  cmd : Command
  /-- The responses given so far, oldest first. -/
  sent : List Response
deriving DecidableEq, Repr

/-- How the model stops on a behaviour the spec leaves without any effect. -/
inductive Fault where
  /-- GETBU or PUTBU with a byte index `>= N`: the spec says UNDEFINED and asks for a fault of the model after which nothing is
  claimed (41_element_access.md rule R124; 93_implementation_defined.md U1). Raised by `execGetbu`, `execPutbu`. Safe: the
  hardware goes on, the model claims nothing. Log entry 6. -/
  | uncheckedIndex
deriving DecidableEq, Repr

/-- How the model declines to say what happens. -/
inductive Refusal where
  /-- An instruction without a meaning in this model. No arm of `exec` answers with it: every row of spec/opcode_table.json has
  its meaning. Safe. -/
  | notModelled (mnemonic : String)
deriving DecidableEq, Repr

/-- What one step ends in. -/
abbrev Result := Host.Outcome State Fault Refusal

/-- The buffer of `n` zero bytes (00_scope.md section 7.2). -/
def zeroBuffer (n : Nat) : Buffer := List.replicate n 0

/-- The state right after reset of an engine with straps `c` (10_state.md rule R30): every byte of every register zero, the fault
record clear. Nothing has been presented, sampled or answered (log entries 2, 4, 5). -/
def State.resetFor (c : Config) : State where
  cfg := c
  b := Vector.replicate nreg (zeroBuffer c.n)
  flt := false
  cause := 0
  fctl := 0
  host := []
  cmd := { ctl := 0, opnd := 0, din := zeroBuffer c.n }
  sent := []

/-- The state right after reset, of the engine whose straps nobody knows (log entry 1). -/
def State.reset : State := State.resetFor Config.straps

end Sys2Proof.Machine
end

