-- ==== Sys2Proof/Machine/Operands.lean ====
section
/-! DEFINITION. Buffers as values: byte and bit numbering, the value of a buffer, the port lanes (spec/00_scope.md section 7.2,
spec/20_memory.md rules R41 to R43), and what each operand of a command means (spec/30_encoding.md rule R71). -/

namespace Sys2Proof.Machine

/-- The buffer of `n` bytes whose byte `i` is `f i`. Every command that computes a buffer builds it afresh by this
(70_reset_and_hazards.md rule R340). -/
def build (n : Nat) (f : Nat → Byte) : Buffer := (List.range n).map f

/-- Byte `i` of a buffer (00_scope.md section 7.3, `b[r][i]`). No rule reads a byte beyond the buffer; there the model reads 0
(log entry 8). -/
def byteAt (x : Buffer) (i : Nat) : Byte := x.getD i 0

/-- The buffer with byte `i` replaced, the other bytes kept (00_scope.md section 7.3, `b[r][i] <- v`). -/
def setByte (x : Buffer) (i : Nat) (v : Byte) : Buffer := x.set i v

/-- The buffer of `n` bytes 0xFF, `ones` (00_scope.md section 7.2). -/
def onesBuffer (n : Nat) : Buffer := build n fun _ => 0xFF#8

/-- `V(x)`: the buffer read as one unsigned number, byte 0 least significant (00_scope.md section 7.2, rule R13). -/
def value : Buffer → Nat
  | [] => 0
  | v :: x => v.toNat + 256 * value x

/-- `ofV(v)`: the buffer of `n` bytes with that value, bits at and above `8*n` dropped (00_scope.md section 7.2). -/
def ofValue (n : Nat) (v : Nat) : Buffer := build n fun i => BitVec.ofNat 8 (v / 2 ^ (8 * i))

/-- `bit(x, p)`: bit `p mod 8` of byte `p div 8` (00_scope.md rule R14). -/
def bitAt (x : Buffer) (p : Nat) : Bool := (byteAt x (p / 8)).getLsbD (p % 8)

/-- The lanes of a data port that carries the number `bits`: lane `i` is bits `8i+7 .. 8i` (20_memory.md rule R42). -/
def lanesOfBits (n : Nat) (bits : Nat) : Buffer := ofValue n bits

/-- The number on a data port with those lanes (20_memory.md rule R42). -/
def bitsOfLanes (x : Buffer) : Nat := value x

/-- The scalar operand as an unsigned number: amount, index or length (30_encoding.md rule R71). -/
def amountOf (c : Command) : Nat := c.opnd.toNat

/-- Byte `k` of a scalar integer: bits `8k+7 .. 8k` (20_memory.md rule R43). -/
def scalarByte (v : Scalar) (k : Nat) : Byte := v.extractLsb' (8 * k) 8

/-- The permissive byte index: `idx` below `n`, else `n - 1`, never a remainder (41_element_access.md rule R120). -/
def clampIndex (n idx : Nat) : Nat := if idx < n then idx else n - 1

/-- The one-bit mask `1 << (p mod 8)` of the bit-level commands (45_bit_mutation.md rules R191 to R193). -/
def bitMask (p : Nat) : Byte := 1#8 <<< (p % 8)

/-- The order a name stands for on a host of the given byte order (47_endian.md rule R221). -/
def resolve (host : Endian) : OrderName → Endian
  | .little => .little
  | .big => .big
  | .native => host

end Sys2Proof.Machine
end

