-- ==== Sys2Proof/Machine/Flags.lean ====
section
/-! DEFINITION. The engine has no flags (spec/10_state.md rule R26): a truth value is the scalar result 0 or 1 of the command that
computes it. Here are the truth values (equality, the lexicographic order, a bit) and the counts. -/

namespace Sys2Proof.Machine

/-- A truth value as a scalar result (30_encoding.md rule R63; 10_state.md rule R26). -/
def truth (v : Bool) : Scalar := if v then 1 else 0

/-- Equality of two buffers, byte by byte (42_bitwise_compare.md rule R145). -/
def equalBuffers (n : Nat) (x y : Buffer) : Bool :=
  (List.range n).all fun i => byteAt x i == byteAt y i

/-- The total order: the first byte index at which the buffers differ decides, index 0 first, bytes as unsigned numbers
(42_bitwise_compare.md rule R146). It is not the order of `value`. -/
def lexLess (n : Nat) (x y : Buffer) : Bool :=
  (List.range n).any fun k =>
    ((List.range k).all fun j => byteAt x j == byteAt y j) && decide ((byteAt x k).toNat < (byteAt y k).toNat)

/-- The number of 1 bits of a byte (00_scope.md section 7.1). -/
def popcount8 (v : Byte) : Nat := ((List.range 8).map fun j => (v.getLsbD j).toNat).sum

/-- The number of 1 bits of a buffer, the sum of its bytes' counts (45_bit_mutation.md rule R195). -/
def popCount (n : Nat) (x : Buffer) : Nat := ((List.range n).map fun i => popcount8 (byteAt x i)).sum

/-- The tested bit; out of range it is false, whatever the buffer holds (45_bit_mutation.md rule R194). -/
def testBit (n : Nat) (x : Buffer) (p : Nat) : Bool := if p < 8 * n then bitAt x p else false

end Sys2Proof.Machine
end

