-- ==== Sys2Proof/Machine/Ops.lean ====
section
/-! DEFINITION. The named operations: register reads and writes, the buffer functions of the command families, giving a
response, sampling a command, taking the one exception and leaving the faulted state by reset. -/

namespace Sys2Proof.Machine

/-! ## Registers (10_state.md rules R20, R22) -/

/-- `b[r]`. -/
def State.reg (s : State) (r : Reg) : Buffer := s.b[r.val]

/-- `b[r] <- y`; no other register changes (10_state.md rule R22). -/
def State.setReg (s : State) (r : Reg) (y : Buffer) : State := { s with b := s.b.set r.val y }

/-! ## Construction (40_construction.md) -/

/-- Every byte the fill byte (rule R101). -/
def fillBuffer (n : Nat) (v : Byte) : Buffer := build n fun _ => v

/-- The lanes of the data input, index for index (rule R102). -/
def copyLanes (n : Nat) (din : Buffer) : Buffer := build n fun i => byteAt din i

/-- The first `min(len, N)` lanes, the rest zero (rule R104). -/
def copyPrefix (n len : Nat) (din : Buffer) : Buffer :=
  build n fun i => if i < min len n then byteAt din i else 0

/-- The low `min(sz, N)` bytes of an integer, least significant first, the rest zero (rule R105; 90_conflicts.md C4). -/
def fromInt (n sz : Nat) (v : Scalar) : Buffer :=
  build n fun i => if i < min sz n then scalarByte v i else 0

/-! ## Bitwise algebra, byte lane by byte lane (42_bitwise_compare.md rule R140) -/

/-- Rule R141. -/
def andBuffers (n : Nat) (x y : Buffer) : Buffer := build n fun i => byteAt x i &&& byteAt y i

/-- Rule R142. -/
def orBuffers (n : Nat) (x y : Buffer) : Buffer := build n fun i => byteAt x i ||| byteAt y i

/-- Rule R143. -/
def xorBuffers (n : Nat) (x y : Buffer) : Buffer := build n fun i => byteAt x i ^^^ byteAt y i

/-- Rule R144. -/
def notBuffer (n : Nat) (x : Buffer) : Buffer := build n fun i => ~~~ byteAt x i

/-! ## Shifts and rotates (43_shift.md, 44_rotate.md) -/

/-- Byte `i` of a left shift by `q` whole bytes and `r` bits: this source byte moved up, and the high bits of the next lower one
carried in (43_shift.md rule R160). -/
def shlByte (x : Buffer) (q r i : Nat) : Byte :=
  if i < q then 0
  else if r = 0 then byteAt x (i - q)
  else (byteAt x (i - q) <<< r) ||| (if q + 1 ≤ i then byteAt x (i - q - 1) >>> (8 - r) else 0)

/-- `shl(x, s)` (43_shift.md rule R160): the identity at 0, zero from `W` on, carries across byte boundaries between. -/
def shl (n : Nat) (x : Buffer) (s : Nat) : Buffer :=
  if s = 0 then x
  else if 8 * n ≤ s then zeroBuffer n
  else build n fun i => shlByte x (s / 8) (s % 8) i

/-- Byte `i` of a right shift by `q` whole bytes and `r` bits: this source byte moved down, and the low bits of the next higher
one carried in (43_shift.md rule R161). -/
def shrByte (n : Nat) (x : Buffer) (q r i : Nat) : Byte :=
  if n ≤ i + q then 0
  else if r = 0 then byteAt x (i + q)
  else (byteAt x (i + q) >>> r) ||| (if i + q + 1 < n then byteAt x (i + q + 1) <<< (8 - r) else 0)

/-- `shr(x, s)` (43_shift.md rule R161): logical, zeros enter at the top. -/
def shr (n : Nat) (x : Buffer) (s : Nat) : Buffer :=
  if s = 0 then x
  else if 8 * n ≤ s then zeroBuffer n
  else build n fun i => shrByte n x (s / 8) (s % 8) i

/-- `rotl(x, m)`: the amount reduced modulo `W`, then one shift OR the complementary one (44_rotate.md rule R180). -/
def rotl (n : Nat) (x : Buffer) (m : Nat) : Buffer :=
  orBuffers n (shl n x (m % (8 * n))) (shr n x (8 * n - m % (8 * n)))

/-- `rotr(x, m)` (44_rotate.md rule R180). -/
def rotr (n : Nat) (x : Buffer) (m : Nat) : Buffer :=
  orBuffers n (shr n x (m % (8 * n))) (shl n x (8 * n - m % (8 * n)))

/-! ## Single bits in place (45_bit_mutation.md rules R190 to R193) -/

/-- Apply `f` to the byte that holds bit `p`; nothing happens from `W` on. -/
def mutateBit (n : Nat) (x : Buffer) (p : Nat) (f : Byte → Byte) : Buffer :=
  if p < 8 * n then setByte x (p / 8) (f (byteAt x (p / 8))) else x

/-- Rule R191. -/
def setBit (n : Nat) (x : Buffer) (p : Nat) : Buffer := mutateBit n x p fun v => v ||| bitMask p

/-- Rule R192. -/
def clearBit (n : Nat) (x : Buffer) (p : Nat) : Buffer := mutateBit n x p fun v => v &&& ~~~ bitMask p

/-- Rule R193. -/
def toggleBit (n : Nat) (x : Buffer) (p : Nat) : Buffer := mutateBit n x p fun v => v ^^^ bitMask p

/-! ## Integers (46_integer.md) -/

/-- The low `min(sz, N)` bytes read back as an integer, zero-extended (rule R210). -/
def toInt (n sz : Nat) (x : Buffer) : Scalar :=
  BitVec.ofNat 64 ((List.range (min sz n)).foldl (fun v i => v ||| ((byteAt x i).toNat <<< (8 * i))) 0)

/-! ## Byte reversal and conversion (47_endian.md) -/

/-- `rev(x)` (rule R220). -/
def rev (n : Nat) (x : Buffer) : Buffer := build n fun i => byteAt x (n - 1 - i)

/-- `conv(x, o)`: the identity when the order is the host's own, else `rev` (rule R222). -/
def conv (c : Config) (x : Buffer) (o : OrderName) : Buffer :=
  if resolve c.native o = c.native then x else rev c.n x

/-! ## Responses (30_encoding.md rules R61 to R63) -/

/-- Give a response: it is the newest of those sent. -/
def State.respond (s : State) (r : Response) : State := { s with sent := s.sent ++ [r] }

/-- The response of a legal command that returns nothing (rule R63). -/
def plainResponse (c : Config) : Response := { status := .ok, res := 0, dout := zeroBuffer c.n }

/-- The response of a legal command that returns a scalar (rule R63). -/
def scalarResponse (c : Config) (v : Scalar) : Response := { status := .ok, res := v, dout := zeroBuffer c.n }

/-- The response of a legal command that returns a buffer (rule R127). -/
def bufferResponse (y : Buffer) : Response := { status := .ok, res := 0, dout := y }

/-- End of a command that writes `rd` and returns nothing. -/
def State.writeBack (s : State) (rd : Reg) (y : Buffer) : State :=
  (s.setReg rd y).respond (plainResponse s.cfg)

/-- End of a command that returns a scalar and writes nothing. -/
def State.returnScalar (s : State) (v : Scalar) : State := s.respond (scalarResponse s.cfg v)

/-- End of a command that returns a buffer and writes nothing. -/
def State.returnBuffer (s : State) (y : Buffer) : State := s.respond (bufferResponse y)

/-- End of an in-place normalisation to the order `o`: nothing is written when that is the host's order, else the register is
reversed (47_endian.md rules R232, R233). -/
def State.normalise (s : State) (rd : Reg) (o : Endian) : State :=
  if s.cfg.native = o then s.respond (plainResponse s.cfg) else s.writeBack rd (rev s.cfg.n (s.reg rd))

/-! ## The command port, the exception and reset -/

/-- The command `c` is transferred: sampled, and no longer to be presented (30_encoding.md rule R60). -/
def State.accept (s : State) (c : Command) (rest : List HostEvent) : State := { s with host := rest, cmd := c }

/-- `raise IllegalCommand(ctl)`: the fault record is written, the response is ILLEGAL, nothing else changes
(60_exceptions.md rule R303). -/
def State.raiseIllegal (s : State) (ctl : CtlWord) : State :=
  { s with
    flt := true
    cause := 1
    fctl := ctl
    sent := s.sent ++ [{ status := .illegal, res := 0, dout := zeroBuffer s.cfg.n }] }

/-- A command that arrives in the faulted state: answered REJECTED, nothing changes (60_exceptions.md rule R304). -/
def State.reject (s : State) : State :=
  s.respond { status := .rejected, res := 0, dout := zeroBuffer s.cfg.n }

/-- Reset, the only way out of the faulted state (70_reset_and_hazards.md rules R331, R332; 60_exceptions.md rule R305): the
registers and the fault record take their reset values; the straps stay. What the host has been answered and will do next is
not the engine's state and stays (log entry 4). -/
def State.applyReset (s : State) : State :=
  { s with
    b := Vector.replicate nreg (zeroBuffer s.cfg.n)
    flt := false
    cause := 0
    fctl := 0 }

/-- No command is presented: the engine is idle and its state survives (60_exceptions.md rule R317; log entry 3). -/
def State.idle (s : State) : State := s

/-! ## The read-only outputs (10_state.md rule R27) -/

/-- The six outputs, always visible to the host. -/
structure Outputs where
  cfgN : BitVec 32
  cfgIsLittle : BitVec 1
  cfgIsBig : BitVec 1
  stFlt : BitVec 1
  stCause : BitVec 2
  stFctl : BitVec 32
deriving DecidableEq, Repr

/-- What the outputs show in a state. -/
def State.outputs (s : State) : Outputs where
  cfgN := BitVec.ofNat 32 s.cfg.n
  cfgIsLittle := BitVec.ofBool (s.cfg.native == .little)
  cfgIsBig := BitVec.ofBool (s.cfg.native == .big)
  stFlt := BitVec.ofBool s.flt
  stCause := s.cause
  stFctl := s.fctl

end Sys2Proof.Machine
end

