-- ==== Sys2Proof/Machine/BitLevel.lean ====
section
/-! DEFINITION. Bit-level mutation, test and population count (spec/45_bit_mutation.md). -/

namespace Sys2Proof.Machine

/-- SETBIT: set one bit in place; out of range nothing is written (rules R190, R191). -/
def execSetbit (rd : Reg) (s : State) : Result :=
  .next (s.writeBack rd (setBit s.cfg.n (s.reg rd) (amountOf s.cmd)))

/-- CLRBIT: clear one bit in place; out of range nothing is written (rules R190, R192). -/
def execClrbit (rd : Reg) (s : State) : Result :=
  .next (s.writeBack rd (clearBit s.cfg.n (s.reg rd) (amountOf s.cmd)))

/-- TGLBIT: toggle one bit in place; out of range nothing is written (rules R190, R193). -/
def execTglbit (rd : Reg) (s : State) : Result :=
  .next (s.writeBack rd (toggleBit s.cfg.n (s.reg rd) (amountOf s.cmd)))

/-- TSTBIT: one bit as a scalar 0 or 1; out of range 0 (rules R190, R194). -/
def execTstbit (rs1 : Reg) (s : State) : Result :=
  .next (s.returnScalar (truth (testBit s.cfg.n (s.reg rs1) (amountOf s.cmd))))

/-- POPCNT: the number of 1 bits (rule R195). -/
def execPopcnt (rs1 : Reg) (s : State) : Result :=
  .next (s.returnScalar (BitVec.ofNat 64 (popCount s.cfg.n (s.reg rs1))))

end Sys2Proof.Machine
end

