-- ==== Sys2Proof/Machine/Bitwise.lean ====
section
/-! DEFINITION. Bitwise algebra and comparison (spec/42_bitwise_compare.md). -/

namespace Sys2Proof.Machine

/-- AND (rule R141). -/
def execAnd (rd rs1 rs2 : Reg) (s : State) : Result :=
  .next (s.writeBack rd (andBuffers s.cfg.n (s.reg rs1) (s.reg rs2)))

/-- OR (rule R142). -/
def execOr (rd rs1 rs2 : Reg) (s : State) : Result :=
  .next (s.writeBack rd (orBuffers s.cfg.n (s.reg rs1) (s.reg rs2)))

/-- XOR (rule R143). -/
def execXor (rd rs1 rs2 : Reg) (s : State) : Result :=
  .next (s.writeBack rd (xorBuffers s.cfg.n (s.reg rs1) (s.reg rs2)))

/-- NOT (rule R144). -/
def execNot (rd rs1 : Reg) (s : State) : Result :=
  .next (s.writeBack rd (notBuffer s.cfg.n (s.reg rs1)))

/-- CMPEQ: byte-exact equality as a scalar 0 or 1 (rule R145). -/
def execCmpeq (rs1 rs2 : Reg) (s : State) : Result :=
  .next (s.returnScalar (truth (equalBuffers s.cfg.n (s.reg rs1) (s.reg rs2))))

/-- CMPLT: less-than in the lexicographic order, index 0 first (rules R146, R147). -/
def execCmplt (rs1 rs2 : Reg) (s : State) : Result :=
  .next (s.returnScalar (truth (lexLess s.cfg.n (s.reg rs1) (s.reg rs2))))

end Sys2Proof.Machine
end

