-- ==== Sys2Proof/Machine/Construction.lean ====
section
/-! DEFINITION. The construction commands (spec/40_construction.md). -/

namespace Sys2Proof.Machine

/-- ZERO: default construction, every byte zero (rule R100). -/
def execZero (rd : Reg) (s : State) : Result :=
  .next (s.writeBack rd (zeroBuffer s.cfg.n))

/-- FILL: every byte the immediate (rule R101). -/
def execFill (rd : Reg) (imm8 : Byte) (s : State) : Result :=
  .next (s.writeBack rd (fillBuffer s.cfg.n imm8))

/-- LDA: the N lanes of the data input, index for index (rule R102). -/
def execLda (rd : Reg) (s : State) : Result :=
  .next (s.writeBack rd (copyLanes s.cfg.n s.cmd.din))

/-- LDP: the first `min(len, N)` lanes of the data input, the rest zero (rule R104). -/
def execLdp (rd : Reg) (s : State) : Result :=
  .next (s.writeBack rd (copyPrefix s.cfg.n (amountOf s.cmd) s.cmd.din))

/-- LDI: an integer of `sz` bytes, least significant byte first, zero-filled or truncated (rule R105). -/
def execLdi (rd : Reg) (sz : Width) (s : State) : Result :=
  .next (s.writeBack rd (fromInt s.cfg.n sz.bytes s.cmd.opnd))

/-- MOV: a copy; the source stays (rule R107). -/
def execMov (rd rs1 : Reg) (s : State) : Result :=
  .next (s.writeBack rd (s.reg rs1))

end Sys2Proof.Machine
end

