-- ==== Sys2Proof/Machine/ElementAccess.lean ====
section
/-! DEFINITION. Byte access and read-out (spec/41_element_access.md). -/

namespace Sys2Proof.Machine

/-- GETB: permissive byte read (rules R120, R121). -/
def execGetb (rs1 : Reg) (s : State) : Result :=
  .next (s.returnScalar ((byteAt (s.reg rs1) (clampIndex s.cfg.n (amountOf s.cmd))).setWidth 64))

/-- PUTB: permissive byte write (rules R120, R122). -/
def execPutb (rd : Reg) (imm8 : Byte) (s : State) : Result :=
  .next (s.writeBack rd (setByte (s.reg rd) (clampIndex s.cfg.n (amountOf s.cmd)) imm8))

/-- GETBU: unchecked byte read; at an index `>= N` the spec leaves no effect to model (rules R124, R125). -/
def execGetbu (rs1 : Reg) (s : State) : Result :=
  if amountOf s.cmd < s.cfg.n then
    .next (s.returnScalar ((byteAt (s.reg rs1) (amountOf s.cmd)).setWidth 64))
  else .fault .uncheckedIndex

/-- PUTBU: unchecked byte write; at an index `>= N` the spec leaves no effect to model (rules R124, R126). -/
def execPutbu (rd : Reg) (imm8 : Byte) (s : State) : Result :=
  if amountOf s.cmd < s.cfg.n then
    .next (s.writeBack rd (setByte (s.reg rd) (amountOf s.cmd) imm8))
  else .fault .uncheckedIndex

/-- RDA: all N bytes on the data output, in storage order (rule R127). -/
def execRda (rs1 : Reg) (s : State) : Result :=
  .next (s.returnBuffer (s.reg rs1))

end Sys2Proof.Machine
end

