-- ==== Sys2Proof/Machine/Endian.lean ====
section
/-! DEFINITION. Byte reversal and endianness conversion (spec/47_endian.md). -/

namespace Sys2Proof.Machine

/-- REV: unconditional byte reversal (rules R220, R223). -/
def execRev (rd rs1 : Reg) (s : State) : Result :=
  .next (s.writeBack rd (rev s.cfg.n (s.reg rs1)))

/-- TOLE: to little-endian (rule R224). -/
def execTole (rd rs1 : Reg) (s : State) : Result :=
  .next (s.writeBack rd (conv s.cfg (s.reg rs1) .little))

/-- TOBE: to big-endian (rule R225). -/
def execTobe (rd rs1 : Reg) (s : State) : Result :=
  .next (s.writeBack rd (conv s.cfg (s.reg rs1) .big))

/-- TONET: to network byte order, which is big-endian (rule R226). -/
def execTonet (rd rs1 : Reg) (s : State) : Result :=
  .next (s.writeBack rd (conv s.cfg (s.reg rs1) .big))

/-- FROMLE: from little-endian (rule R227). -/
def execFromle (rd rs1 : Reg) (s : State) : Result :=
  .next (s.writeBack rd (conv s.cfg (s.reg rs1) .little))

/-- FROMBE: from big-endian (rule R228). -/
def execFrombe (rd rs1 : Reg) (s : State) : Result :=
  .next (s.writeBack rd (conv s.cfg (s.reg rs1) .big))

/-- FROMNET: from network byte order (rule R229). -/
def execFromnet (rd rs1 : Reg) (s : State) : Result :=
  .next (s.writeBack rd (conv s.cfg (s.reg rs1) .big))

/-- TOEND: to the order given in the command (rule R230). The reserved code `ordc = 3` never reaches it: `decode` refuses the word and
the step raises IllegalCommand (30_encoding.md rule R72). -/
def execToend (rd rs1 : Reg) (ord : OrderName) (s : State) : Result :=
  .next (s.writeBack rd (conv s.cfg (s.reg rs1) ord))

/-- FROMEND: from the order given in the command (rule R231); `ordc = 3` as for TOEND. -/
def execFromend (rd rs1 : Reg) (ord : OrderName) (s : State) : Result :=
  .next (s.writeBack rd (conv s.cfg (s.reg rs1) ord))

/-- NORMLE: normalise in place to little-endian; nothing is written when that is the host's order (rule R232). -/
def execNormle (rd : Reg) (s : State) : Result :=
  .next (s.normalise rd .little)

/-- NORMBE: normalise in place to big-endian; nothing is written when that is the host's order (rule R233). -/
def execNormbe (rd : Reg) (s : State) : Result :=
  .next (s.normalise rd .big)

/-- TOINTE: an integer from a buffer held in the given order; the conversion is not written back (rule R234); `ordc = 3` as for
TOEND. -/
def execTointe (rs1 : Reg) (sz : Width) (ord : OrderName) (s : State) : Result :=
  .next (s.returnScalar (toInt s.cfg.n sz.bytes (conv s.cfg (s.reg rs1) ord)))

/-- LDIE: a buffer in the given order from an integer (rule R235); `ordc = 3` as for TOEND. -/
def execLdie (rd : Reg) (sz : Width) (ord : OrderName) (s : State) : Result :=
  .next (s.writeBack rd (conv s.cfg (fromInt s.cfg.n sz.bytes s.cmd.opnd) ord))

end Sys2Proof.Machine
end

