-- ==== Sys2Proof/Machine/Integer.lean ====
section
/-! DEFINITION. Integer extraction (spec/46_integer.md). -/

namespace Sys2Proof.Machine

/-- TOINT: the low `min(sz, N)` bytes as an integer (rule R210). -/
def execToint (rs1 : Reg) (sz : Width) (s : State) : Result :=
  .next (s.returnScalar (toInt s.cfg.n sz.bytes (s.reg rs1)))

end Sys2Proof.Machine
end

