-- ==== Sys2Proof/Machine/Rotate.lean ====
section
/-! DEFINITION. Rotates of the whole buffer (spec/44_rotate.md). -/

namespace Sys2Proof.Machine

/-- ROL: rotate left by the amount modulo `W` (rules R180, R181). -/
def execRol (rd rs1 : Reg) (s : State) : Result :=
  .next (s.writeBack rd (rotl s.cfg.n (s.reg rs1) (amountOf s.cmd)))

/-- ROR: rotate right by the amount modulo `W` (rules R180, R182). -/
def execRor (rd rs1 : Reg) (s : State) : Result :=
  .next (s.writeBack rd (rotr s.cfg.n (s.reg rs1) (amountOf s.cmd)))

end Sys2Proof.Machine
end

