-- ==== Sys2Proof/Machine/Shift.lean ====
section
/-! DEFINITION. Shifts of the whole buffer (spec/43_shift.md). -/

namespace Sys2Proof.Machine

/-- SHL: shift left, no reduction of the amount (rules R160, R162). -/
def execShl (rd rs1 : Reg) (s : State) : Result :=
  .next (s.writeBack rd (shl s.cfg.n (s.reg rs1) (amountOf s.cmd)))

/-- SHR: logical shift right, no reduction of the amount (rules R161, R163). -/
def execShr (rd rs1 : Reg) (s : State) : Result :=
  .next (s.writeBack rd (shr s.cfg.n (s.reg rs1) (amountOf s.cmd)))

end Sys2Proof.Machine
end

