-- ==== Sys2Proof/Machine/Dispatch.lean ====
section
/-! DEFINITION. The meaning of each command, by its constructor. -/

namespace Sys2Proof.Machine

def exec (i : Instr) (s : State) : Host.Outcome State Fault Refusal :=
  match i with
  | .zero rd => Sys2Proof.Machine.execZero rd s
  | .fill rd imm8 => Sys2Proof.Machine.execFill rd imm8 s
  | .lda rd => Sys2Proof.Machine.execLda rd s
  | .ldp rd => Sys2Proof.Machine.execLdp rd s
  | .ldi rd sz => Sys2Proof.Machine.execLdi rd sz s
  | .mov rd rs1 => Sys2Proof.Machine.execMov rd rs1 s
  | .getb rs1 => Sys2Proof.Machine.execGetb rs1 s
  | .putb rd imm8 => Sys2Proof.Machine.execPutb rd imm8 s
  | .getbu rs1 => Sys2Proof.Machine.execGetbu rs1 s
  | .putbu rd imm8 => Sys2Proof.Machine.execPutbu rd imm8 s
  | .rda rs1 => Sys2Proof.Machine.execRda rs1 s
  | .and rd rs1 rs2 => Sys2Proof.Machine.execAnd rd rs1 rs2 s
  | .or rd rs1 rs2 => Sys2Proof.Machine.execOr rd rs1 rs2 s
  | .xor rd rs1 rs2 => Sys2Proof.Machine.execXor rd rs1 rs2 s
  | .not rd rs1 => Sys2Proof.Machine.execNot rd rs1 s
  | .cmpeq rs1 rs2 => Sys2Proof.Machine.execCmpeq rs1 rs2 s
  | .cmplt rs1 rs2 => Sys2Proof.Machine.execCmplt rs1 rs2 s
  | .shl rd rs1 => Sys2Proof.Machine.execShl rd rs1 s
  | .shr rd rs1 => Sys2Proof.Machine.execShr rd rs1 s
  | .rol rd rs1 => Sys2Proof.Machine.execRol rd rs1 s
  | .ror rd rs1 => Sys2Proof.Machine.execRor rd rs1 s
  | .setbit rd => Sys2Proof.Machine.execSetbit rd s
  | .clrbit rd => Sys2Proof.Machine.execClrbit rd s
  | .tglbit rd => Sys2Proof.Machine.execTglbit rd s
  | .tstbit rs1 => Sys2Proof.Machine.execTstbit rs1 s
  | .popcnt rs1 => Sys2Proof.Machine.execPopcnt rs1 s
  | .toint rs1 sz => Sys2Proof.Machine.execToint rs1 sz s
  | .rev rd rs1 => Sys2Proof.Machine.execRev rd rs1 s
  | .tole rd rs1 => Sys2Proof.Machine.execTole rd rs1 s
  | .tobe rd rs1 => Sys2Proof.Machine.execTobe rd rs1 s
  | .tonet rd rs1 => Sys2Proof.Machine.execTonet rd rs1 s
  | .fromle rd rs1 => Sys2Proof.Machine.execFromle rd rs1 s
  | .frombe rd rs1 => Sys2Proof.Machine.execFrombe rd rs1 s
  | .fromnet rd rs1 => Sys2Proof.Machine.execFromnet rd rs1 s
  | .toend rd rs1 ord => Sys2Proof.Machine.execToend rd rs1 ord s
  | .fromend rd rs1 ord => Sys2Proof.Machine.execFromend rd rs1 ord s
  | .normle rd => Sys2Proof.Machine.execNormle rd s
  | .normbe rd => Sys2Proof.Machine.execNormbe rd s
  | .tointe rs1 sz ord => Sys2Proof.Machine.execTointe rs1 sz ord s
  | .ldie rd sz ord => Sys2Proof.Machine.execLdie rd sz ord s

end Sys2Proof.Machine
end

