-- ==== Sys2Proof/Machine/Run.lean ====
section
/-! DEFINITION. One command from the port to its response (spec/30_encoding.md rule R70), what each thing the host does makes the
engine do, and the functions `exec` and `run` of spec/10_state.md rule R25. -/

namespace Sys2Proof.Machine

/-- Execute the sampled command (30_encoding.md rule R70; priority: 60_exceptions.md rule R307): in the faulted state it is
rejected without being decoded; an illegal word raises IllegalCommand; a legal one is executed. -/
def runSampled (s : State) : Result :=
  if s.flt then .next s.reject
  else match decode s.cmd.ctl with
    | .error _ => .next (s.raiseIllegal s.cmd.ctl)
    | .ok i => exec i s

/-- One action of the host, with what it does afterwards (70_reset_and_hazards.md rule R330). -/
def handleEvent (s : State) (e : HostEvent) (rest : List HostEvent) : Result :=
  match e with
  | .command c => runSampled (s.accept c rest)
  | .reset => .next { s.applyReset with host := rest }

/-- One step: the host's next action; with none, the engine is idle (20_memory.md rule R47; log entries 2, 3). -/
def nextStep (s : State) : Result :=
  match s.host with
  | [] => .next s.idle
  | e :: rest => handleEvent s e rest

/-- `exec S c` of 10_state.md rule R25: one command presented in state `s`, with whatever the host does afterwards left to do. -/
def presentCommand (s : State) (c : Command) : Result := runSampled (s.accept c s.host)

/-- `run S cs` of 10_state.md rule R25: the commands one after another. The responses are the ones added to `sent`. -/
def presentAll (s : State) : List Command → Result
  | [] => .next s
  | c :: cs =>
    match presentCommand s c with
    | .next s' => presentAll s' cs
    | .fault r => .fault r
    | .refused r => .refused r

/-- `s` with one more command presented, before anything else the host does: the control word `w`, operand and data input zero.
-/
def presentWord (s : State) (w : Nat) : State :=
  { s with host := .command { ctl := BitVec.ofNat 32 w, opnd := 0, din := zeroBuffer s.cfg.n } :: s.host }

end Sys2Proof.Machine
end

