-- ==== Sys2Proof/Machine/Step.lean ====
section
/-! DEFINITION. The step, and how the host of the pipeline presents one instruction to it. -/

namespace Sys2Proof.Machine

/-- One step of the engine: the host's next action (spec/10_state.md rule R25; spec/20_memory.md rule R47). -/
def step (s : State) : Host.Outcome State Fault Refusal := nextStep s

/-- `s` with the table word `w` presented next on the command port, its operand and data input zero (log entry 2). -/
def State.withFetchWord (s : State) (nbits w : Nat) : State := presentWord s (w % 2 ^ nbits)

end Sys2Proof.Machine
end

