-- ==== Sys2Proof/Safety.lean ====
section
/-! DEFINITION. The terms claims are stated in: the invariant of the machine, what a command changes and answers, which control
words are illegal by the spec's own list, and when a run ended well. -/

namespace Sys2Proof.Machine

/-! ## The invariant -/

/-- Every register holds a complete value of `N` bytes (spec/10_state.md rules R20, R21). -/
def State.registersComplete (s : State) : Prop := ∀ r : Reg, (s.reg r).length = s.cfg.n

/-- The fault record is clear while `flt = 0`, and holds cause 1 and an illegal control word while `flt = 1`
(spec/10_state.md rule R24; spec/60_exceptions.md rules R300, R303). -/
def State.faultRecordConsistent (s : State) : Prop :=
  if s.flt then s.cause = 1 ∧ ∃ e, decode s.fctl = .error e else s.cause = 0 ∧ s.fctl = 0

/-- Every response carries a complete data output, and one that is not OK carries nothing (spec/30_encoding.md rules R61,
R63). -/
def State.responsesComplete (s : State) : Prop :=
  ∀ r ∈ s.sent, r.dout.length = s.cfg.n ∧ (r.status ≠ .ok → r.res = 0 ∧ r.dout = zeroBuffer s.cfg.n)

/-- The invariant of the machine. -/
structure State.Inv (s : State) : Prop where
  registers : s.registersComplete
  record : s.faultRecordConsistent
  responses : s.responsesComplete

/-! ## What a command changes and answers -/

/-- From `s` to `t` the command answered `r` and changed nothing but register `rd` (spec/00_scope.md rule R11; spec/10_state.md
rules R22, R23). -/
def WritesOnly (s t : State) (rd : Reg) (r : Response) : Prop :=
  t.cfg = s.cfg ∧ t.flt = s.flt ∧ t.cause = s.cause ∧ t.fctl = s.fctl ∧ t.host = s.host ∧ t.cmd = s.cmd ∧
    t.sent = s.sent ++ [r] ∧ ∀ r', r' ≠ rd → t.reg r' = s.reg r'

/-- From `s` to `t` the command answered `r` and changed nothing. -/
def WritesNothing (s t : State) (r : Response) : Prop := t = { s with sent := s.sent ++ [r] }

/-- `exec i s` answers a next state in which only `rd` changed, to the `N` bytes `f`, with a response that carries no result. -/
def GivesBytes (i : Instr) (s : State) (rd : Reg) (f : Nat → Byte) : Prop :=
  ∃ t, exec i s = .next t ∧ WritesOnly s t rd { status := .ok, res := 0, dout := zeroBuffer s.cfg.n } ∧
    (t.reg rd).length = s.cfg.n ∧ ∀ k < s.cfg.n, byteAt (t.reg rd) k = f k

/-- As `GivesBytes`, the new value of `rd` said by its `8*N` bits (spec/00_scope.md rule R14). -/
def GivesBits (i : Instr) (s : State) (rd : Reg) (f : Nat → Bool) : Prop :=
  ∃ t, exec i s = .next t ∧ WritesOnly s t rd { status := .ok, res := 0, dout := zeroBuffer s.cfg.n } ∧
    (t.reg rd).length = s.cfg.n ∧ ∀ q < s.cfg.w, bitAt (t.reg rd) q = f q

/-- As `GivesBytes`, the new value of `rd` said by the number it is (spec/00_scope.md section 7.2). -/
def GivesValue (i : Instr) (s : State) (rd : Reg) (v : Nat) : Prop :=
  ∃ t, exec i s = .next t ∧ WritesOnly s t rd { status := .ok, res := 0, dout := zeroBuffer s.cfg.n } ∧
    (t.reg rd).length = s.cfg.n ∧ value (t.reg rd) = v

/-- `exec i s` answers a next state in which nothing changed, with the scalar result `v`. -/
def GivesScalar (i : Instr) (s : State) (v : Nat) : Prop :=
  ∃ t res, exec i s = .next t ∧ WritesNothing s t { status := .ok, res := res, dout := zeroBuffer s.cfg.n } ∧
    res.toNat = v

/-- The control word with these field values, as a number (spec/30_encoding.md rule R65). -/
def ctlNumber (opcode rd rs1 rs2 szc ordc imm8 : Nat) : Nat :=
  opcode + rd * 2 ^ 8 + rs1 * 2 ^ 12 + rs2 * 2 ^ 16 + szc * 2 ^ 20 + ordc * 2 ^ 22 + imm8 * 2 ^ 24

/-! ## Illegal control words, by the list of spec/30_encoding.md rule R72 -/

/-- The opcodes rule R72 lists as unassigned. -/
def opcodeUnassigned (op : Nat) : Bool :=
  op == 0x00 || (0x07 ≤ op && op ≤ 0x0F) || (0x15 ≤ op && op ≤ 0x1F) || (0x26 ≤ op && op ≤ 0x2F) ||
    (0x34 ≤ op && op ≤ 0x3F) || (0x45 ≤ op && op ≤ 0x4F) || (0x51 ≤ op && op ≤ 0x5F) || (0x6D ≤ op && op ≤ 0xFF)

/-- Items 1, 2 and 3 of rule R72, from the opcode map's masks (rules R68, R69) and the reserved order code (rule R67). -/
def illegalWord (w : CtlWord) : Bool :=
  opcodeUnassigned (w.toNat % 256) ||
    (opcodeTable.any fun row => row.opcode.toNat == w.toNat % 256 && w &&& row.mask != row.pattern) ||
    ([0x67, 0x68, 0x6B, 0x6C].contains (w.toNat % 256) && w.toNat / 2 ^ 22 % 4 == 3)

/-! ## Runs -/

/-- GETBU and PUTBU, the commands with an index that is not checked (spec/41_element_access.md rule R124). -/
def uncheckedAccess : Instr → Bool
  | .getbu _ | .putbu _ _ => true
  | _ => false

/-- The run of the commands `cs` from `s` ended well in `t` (spec/70_reset_and_hazards.md rule R346): it reached `t`, so no
GETBU or PUTBU went out of range, and the engine is not faulted. -/
def EndedWell (s : State) (cs : List Command) (t : State) : Prop := presentAll s cs = .next t ∧ t.flt = false

end Sys2Proof.Machine
end

