-- ==== Sys2Proof/Certificates/Slice0/Obligations.lean ====
section
/-! DEFINITION. The statements for the provers. `N` and `NATIVE` are fields of the state that no step writes, so a statement about
every state is a statement about every engine. -/

open Sys2Proof Sys2Proof.Machine

/-! ## Control words -/

/-- Decoding the encoder's word of a command gives the command back, for every command and every operand: no bit of an encoding is
dropped (spec/30_encoding.md rules R65, R70, R77). -/
def Obligations.DecodeOfEncodeIsTheCommand : Prop :=
  ∀ i : Instr, decode (encode i) = .ok i

/-- A legal control word is the encoder's word of the command it selects: no word but one selects a command with its operands,
because a field that is not live must be zero (spec/30_encoding.md rule R69). -/
def Obligations.EncodeOfDecodeIsTheWord : Prop :=
  ∀ (w : CtlWord) (i : Instr), decode w = .ok i → encode i = w

/-- The decoder, which reads fields, and the opcode map, which masks and compares, select the same command on every word
(spec/30_encoding.md rules R68, R70). -/
def Obligations.DecoderAgreesWithTheOpcodeMap : Prop :=
  ∀ (w : CtlWord) (m : String),
    (∃ i, decode w = .ok i ∧ i.mnemonic = m) ↔ ∃ row ∈ opcodeTable, row.mnemonic = m ∧ row.selects w = true

/-- No word is selected by two rows of the opcode map (spec/30_encoding.md rule R70). -/
def Obligations.AtMostOneRowSelectsAWord : Prop :=
  ∀ (w : CtlWord), ∀ r₁ ∈ opcodeTable, ∀ r₂ ∈ opcodeTable, r₁.selects w = true → r₂.selects w = true → r₁ = r₂

/-- Words the spec writes out with their assembler lines, one or more for each family, and three illegal ones, decode as the spec
says (spec/30_encoding.md rule R77, spec/95_test_vectors.md sections 2 and 2.9). -/
def Obligations.WordsOfTheSpecDecodeToTheirCommands : Prop :=
  decode 0x00000301#32 = .ok (.zero 3) ∧ decode 0xA5000202#32 = .ok (.fill 2 0xA5#8) ∧
  decode 0x00200105#32 = .ok (.ldi 1 .w4) ∧ decode 0x7F000311#32 = .ok (.putb 3 0x7F#8) ∧
  decode 0x00009014#32 = .ok (.rda 9) ∧ decode 0x00021320#32 = .ok (.and 3 1 2) ∧
  decode 0x00031024#32 = .ok (.cmpeq 1 3) ∧ decode 0x00001230#32 = .ok (.shl 2 1) ∧
  decode 0x00001133#32 = .ok (.ror 1 1) ∧ decode 0x00000142#32 = .ok (.tglbit 1) ∧
  decode 0x00101050#32 = .ok (.toint 1 .w2) ∧ decode 0x00401267#32 = .ok (.toend 2 1 .big) ∧
  decode 0x0060106B#32 = .ok (.tointe 1 .w4 .big) ∧ decode 0x00A0016C#32 = .ok (.ldie 1 .w4 .native) ∧
  decode 0x00000000#32 = .error .unassignedOpcode ∧ decode 0x00001301#32 = .error .nonLiveField ∧
  decode 0x00C01267#32 = .error .reservedOrder

/-- The command an assembler line assembles to: its control word decodes to the line's instruction, the operand and the lanes are the
ones written when the instruction reads them and zero when it does not, and the port can carry it (spec/30_encoding.md rule
R77). -/
def Obligations.AssembledCommandIsWellFormedAndDecodes : Prop :=
  ∀ (c : Config) (i : Instr) (opnd : Scalar) (lanes : Buffer),
    decode (assemble c i opnd lanes).ctl = .ok i ∧ (assemble c i opnd lanes).wellFormed c = true ∧
    (assemble c i opnd lanes).opnd = (if i.readsOpnd = true then opnd else 0) ∧
    ∀ k < c.n, byteAt (assemble c i opnd lanes).din k = if i.readsDin = true then byteAt lanes k else 0x00#8

/-- On a working engine a command raises IllegalCommand exactly when its control word is illegal by the spec's own list, whatever
`opnd` and `din` are (spec/30_encoding.md rule R72; spec/60_exceptions.md rule R301). -/
def Obligations.IllegalCommandIsRaisedExactlyOnIllegalWords : Prop :=
  ∀ (s : State) (c : Command) (rest : List HostEvent), s.flt = false → s.host = .command c :: rest →
    ((∃ t, step s = .next t ∧ t.flt = true) ↔ illegalWord c.ctl = true)

/-! ## The step, the exception, reset -/

/-- On a working engine, when the command the host presents next decodes to `i`, the step is `exec i` in the state that has sampled
the command; sampling takes it off what the host does next and changes nothing else (spec/30_encoding.md rule R70). -/
def Obligations.StepExecutesTheDecodedCommand : Prop :=
  ∀ (s : State) (c : Command) (rest : List HostEvent) (i : Instr),
    s.flt = false → s.host = .command c :: rest → decode c.ctl = .ok i →
    step s = exec i (s.accept c rest) ∧ s.accept c rest = { s with host := rest, cmd := c }

/-- Taking IllegalCommand: flt, cause and fctl are written, the response is ILLEGAL and empty, every register keeps its value, and
the host sees the record on the outputs (spec/60_exceptions.md rule R303). -/
def Obligations.IllegalCommandWritesTheFaultRecordOnly : Prop :=
  ∀ (s : State) (c : Command) (rest : List HostEvent) (e : Illegal),
    s.flt = false → s.host = .command c :: rest → decode c.ctl = .error e →
    ∃ t, step s = .next t ∧ t.flt = true ∧ t.cause = 1 ∧ t.fctl = c.ctl ∧
      t.sent = s.sent ++ [{ status := .illegal, res := 0, dout := zeroBuffer s.cfg.n }] ∧
      (∀ r, t.reg r = s.reg r) ∧ t.cfg = s.cfg ∧ t.host = rest ∧ t.cmd = c ∧
      t.outputs.stFlt = 1 ∧ t.outputs.stCause = 1 ∧ t.outputs.stFctl = c.ctl

/-- In the faulted state every list of commands, legal or not, is answered REJECTED one by one, and the registers and the fault
record keep the values they had (spec/60_exceptions.md rule R304). -/
def Obligations.FaultedEngineRejectsEveryCommand : Prop :=
  ∀ (cs : List Command) (s : State), s.flt = true → s.host = cs.map .command →
    ∃ t : State, Sys2Proof.core.run cs.length s = .next t ∧ t.b = s.b ∧ t.flt = true ∧ t.cause = s.cause ∧
      t.fctl = s.fctl ∧ t.cfg = s.cfg ∧ t.host = [] ∧
      t.sent = s.sent ++ List.replicate cs.length { status := .rejected, res := 0, dout := zeroBuffer s.cfg.n }

/-- A step that leaves the faulted state is a reset, and reset zeroes every register (spec/60_exceptions.md rule R305;
spec/70_reset_and_hazards.md rule R332). -/
def Obligations.OnlyResetLeavesTheFaultedState : Prop :=
  ∀ s t : State, step s = .next t → s.flt = true → t.flt = false →
    (∃ rest, s.host = .reset :: rest) ∧ ∀ r, t.reg r = zeroBuffer s.cfg.n

/-- Reset takes any engine, faulted or not, to the reset state of its straps; the host's later actions and the responses already
given are not the engine's state and stay: the last is the model's choice (log entry 4) (spec/70_reset_and_hazards.md rule
R331). -/
def Obligations.ResetTakesAnyStateToTheResetState : Prop :=
  ∀ (s : State) (rest : List HostEvent), s.host = .reset :: rest →
    step s = .next { State.resetFor s.cfg with host := rest, cmd := s.cmd, sent := s.sent }

/-- With nothing presented the engine keeps its state. That an idle step exists is the model's choice (log entry 3); that the state
survives is spec/60_exceptions.md rule R317. -/
def Obligations.IdleStepKeepsTheState : Prop :=
  ∀ s : State, s.host = [] → step s = .next s

/-- After reset, for every `N` and `NATIVE`: every byte of every register is 0x00, flt, cause and fctl are 0
(spec/10_state.md rule R30); and so it is in the state the host runs from. -/
def Obligations.ResetStateIsAllZero : Prop :=
  (∀ c : Config, (∀ r i, i < c.n → byteAt ((State.resetFor c).reg r) i = 0x00#8) ∧
    (∀ r, ((State.resetFor c).reg r).length = c.n) ∧ (State.resetFor c).cfg = c ∧ (State.resetFor c).flt = false ∧
    (State.resetFor c).cause = 0 ∧ (State.resetFor c).fctl = 0) ∧
  (∀ r i, i < State.reset.cfg.n → byteAt (State.reset.reg r) i = 0x00#8) ∧
  (∀ r, (State.reset.reg r).length = State.reset.cfg.n) ∧ State.reset.flt = false ∧ State.reset.cause = 0 ∧
  State.reset.fctl = 0

/-- The invariant holds right after reset, for every `N` and `NATIVE` (spec/10_state.md rules R21, R24, R30). -/
def Obligations.ResetSatisfiesTheInvariant : Prop :=
  (∀ c, (State.resetFor c).Inv) ∧ State.reset.Inv

/-- Every step keeps the invariant: every register holds `N` bytes, the fault record is clear or holds cause 1 and an illegal word,
every response is complete (spec/10_state.md rules R21, R24; spec/30_encoding.md rule R63). -/
def Obligations.EveryStepKeepsTheInvariant : Prop :=
  ∀ s t : State, s.Inv → step s = .next t → t.Inv

/-- Every command presented is answered by exactly one response, REJECTED exactly when the engine was faulted, ILLEGAL exactly when
it was not and the word does not decode (spec/30_encoding.md rules R61, R62; spec/60_exceptions.md rule R307). -/
def Obligations.EveryCommandGetsOneResponse : Prop :=
  ∀ (s t : State) (c : Command) (rest : List HostEvent), s.host = .command c :: rest → step s = .next t →
    t.host = rest ∧ ∃ r : Response, t.sent = s.sent ++ [r] ∧ (r.status = .rejected ↔ s.flt = true) ∧
      (r.status = .illegal ↔ s.flt = false ∧ ∃ e, decode c.ctl = .error e)

/-- Stepping through what the host does, when that is a list of commands, is the spec's `run` of the list: one command after
another, each seeing what the ones before it left (spec/10_state.md rule R25; spec/20_memory.md rule R47). -/
def Obligations.SteppingTheHostQueueIsTheRunOfItsCommands : Prop :=
  ∀ (cs : List Command) (s : State), s.host = cs.map .command →
    Sys2Proof.core.run cs.length s = presentAll { s with host := [] } cs

/-- From a working engine every list of legal commands in which no GETBU or PUTBU goes out of range ends well, with one OK response for
each command (spec/70_reset_and_hazards.md rule R346; spec/00_scope.md rule R10). -/
def Obligations.RunsOfLegalCommandsEndWell : Prop :=
  ∀ (cs : List Command) (s : State), s.flt = false →
    (∀ c ∈ cs, ∃ i, decode c.ctl = .ok i ∧ (uncheckedAccess i = true → c.opnd.toNat < s.cfg.n)) →
    ∃ t, EndedWell s cs t ∧ ∃ rs : List Response, t.sent = s.sent ++ rs ∧ rs.length = cs.length ∧ ∀ r ∈ rs, r.status = .ok

/-- The outputs show the straps and the fault record; exactly one of the two order outputs is 1; no step changes the constant ones
(spec/10_state.md rule R27). -/
def Obligations.OutputsShowStrapsAndFaultRecord : Prop :=
  (∀ s : State, s.outputs.cfgN.toNat = s.cfg.n ∧ (s.outputs.cfgIsLittle = 1 ↔ s.cfg.native = .little) ∧
    (s.outputs.cfgIsBig = 1 ↔ s.cfg.native = .big) ∧ s.outputs.cfgIsLittle = ~~~ s.outputs.cfgIsBig ∧
    (s.outputs.stFlt = 1 ↔ s.flt = true) ∧ s.outputs.stCause = s.cause ∧ s.outputs.stFctl = s.fctl) ∧
  ∀ s t : State, step s = .next t → t.cfg = s.cfg ∧ t.outputs.cfgN = s.outputs.cfgN ∧
    t.outputs.cfgIsLittle = s.outputs.cfgIsLittle ∧ t.outputs.cfgIsBig = s.outputs.cfgIsBig

/-! ## All commands -/

/-- A command changes no register but the one the access table marks "D", and neither the straps, the fault record, nor the ports
but for its response (spec/10_state.md rules R22, R23, R24). -/
def Obligations.CommandsChangeOnlyTheirDestination : Prop :=
  ∀ (i : Instr) (s t : State), exec i s = .next t →
    (∀ r, i.dest ≠ some r → t.reg r = s.reg r) ∧ t.cfg = s.cfg ∧ t.flt = s.flt ∧ t.cause = s.cause ∧
      t.fctl = s.fctl ∧ t.host = s.host ∧ t.cmd = s.cmd

/-- What a command writes and answers depends on nothing but the straps, the registers it names as sources, and `opnd` and `din` if
it reads them: two states that agree on these give the same new value of the destination and the same response
(spec/00_scope.md rule R11; spec/10_state.md rule R23; spec/30_encoding.md rule R71). -/
def Obligations.ResultDependsOnlyOnNamedSources : Prop :=
  ∀ (i : Instr) (s s' t : State), s'.cfg = s.cfg → s'.sent = s.sent →
    (∀ r ∈ i.sources, s'.reg r = s.reg r) → (i.readsOpnd = true → s'.cmd.opnd = s.cmd.opnd) →
    (i.readsDin = true → s'.cmd.din = s.cmd.din) → exec i s = .next t →
    ∃ t', exec i s' = .next t' ∧ t'.sent = t.sent ∧ ∀ r, i.dest = some r → t'.reg r = t.reg r

/-- No command outside the conversions of 47_endian.md depends on the host's byte order: with the strap the other way round it does
the same (spec/20_memory.md rule R45). -/
def Obligations.OnlyConversionsReadTheHostOrder : Prop :=
  ∀ (i : Instr) (s t : State) (o : Endian), i.readsNative = false → exec i s = .next t →
    exec i { s with cfg := { s.cfg with native := o } } = .next { t with cfg := { t.cfg with native := o } }

/-- A command with no destination changes nothing but for its response, and presented again it gives the same response: reads have
no side effects (spec/20_memory.md rule R49; spec/10_state.md rule R23). -/
def Obligations.ReadingCommandsChangeNothingAndRepeat : Prop :=
  ∀ (i : Instr) (s t : State), i.dest = none → exec i s = .next t →
    ∃ r, WritesNothing s t r ∧ exec i t = .next { t with sent := t.sent ++ [r] }

/-- Every legal command completes with status OK for every value of its operands, but for GETBU and PUTBU with an index `>= N`
(spec/00_scope.md rule R10; spec/60_exceptions.md rule R302). -/
def Obligations.EveryLegalCommandCompletesOk : Prop :=
  ∀ (i : Instr) (s : State), (uncheckedAccess i = true → s.cmd.opnd.toNat < s.cfg.n) →
    ∃ (t : State) (r : Response), exec i s = .next t ∧ t.sent = s.sent ++ [r] ∧ r.status = .ok

/-! ## Construction (spec/40_construction.md) -/

/-- ZERO writes N zero bytes, FILL N copies of its immediate (rules R100, R101). -/
def Obligations.ZeroAndFillWriteOneByteEverywhere : Prop :=
  ∀ (s : State) (rd : Reg) (imm8 : Byte),
    (encode (.zero rd)).toNat = ctlNumber 0x01 rd 0 0 0 0 0 ∧
    (encode (.fill rd imm8)).toNat = ctlNumber 0x02 rd 0 0 0 0 imm8.toNat ∧
    GivesBytes (.zero rd) s rd (fun _ => 0x00#8) ∧ GivesBytes (.fill rd imm8) s rd (fun _ => imm8)

/-- LDA copies the lanes of the data input, LDP the first `min(len, N)` of them and zeros after (rules R102, R104). -/
def Obligations.LdaAndLdpCopyDataLanes : Prop :=
  ∀ (s : State) (rd : Reg),
    (encode (.lda rd)).toNat = ctlNumber 0x03 rd 0 0 0 0 0 ∧ (encode (.ldp rd)).toNat = ctlNumber 0x04 rd 0 0 0 0 0 ∧
    GivesBytes (.lda rd) s rd (fun k => byteAt s.cmd.din k) ∧
    GivesBytes (.ldp rd) s rd (fun k => if k < min s.cmd.opnd.toNat s.cfg.n then byteAt s.cmd.din k else 0x00#8)

/-- LDI writes the integer's low `min(sz, N)` bytes, least significant first and zero above: as a number, the operand modulo
`2^(8*min(sz, N))` (rule R105). -/
def Obligations.LdiWritesTheIntegerModuloItsWidth : Prop :=
  ∀ (s : State) (rd : Reg) (sz : Width),
    (encode (.ldi rd sz)).toNat = ctlNumber 0x05 rd 0 0 sz.code.toNat 0 0 ∧
    GivesValue (.ldi rd sz) s rd (s.cmd.opnd.toNat % 2 ^ (8 * min sz.bytes s.cfg.n))

/-- MOV copies, leaves its source, and CMPEQ of the two then answers 1 (rule R107). -/
def Obligations.MovCopiesAndKeepsItsSource : Prop :=
  ∀ (s : State) (rd rs1 : Reg),
    (encode (.mov rd rs1)).toNat = ctlNumber 0x06 rd rs1 0 0 0 0 ∧
    ∃ t, exec (.mov rd rs1) s = .next t ∧
      WritesOnly s t rd { status := .ok, res := 0, dout := zeroBuffer s.cfg.n } ∧
      t.reg rd = s.reg rs1 ∧ t.reg rs1 = s.reg rs1 ∧ GivesScalar (.cmpeq rd rs1) t 1

/-! ## Element access (spec/41_element_access.md) -/

/-- GETB reads and PUTB writes the byte at the clamped index: at every index `>= N` it is byte `N - 1`, never a remainder (rules
R120, R121, R122). -/
def Obligations.PermissiveAccessClampsTheIndex : Prop :=
  (∀ (s : State) (rs1 : Reg),
    (encode (.getb rs1)).toNat = ctlNumber 0x10 0 rs1 0 0 0 0 ∧
    (s.cmd.opnd.toNat < s.cfg.n → GivesScalar (.getb rs1) s (byteAt (s.reg rs1) s.cmd.opnd.toNat).toNat) ∧
    (s.cfg.n ≤ s.cmd.opnd.toNat → GivesScalar (.getb rs1) s (byteAt (s.reg rs1) (s.cfg.n - 1)).toNat)) ∧
  ∀ (s : State) (rd : Reg) (imm8 : Byte), (s.reg rd).length = s.cfg.n →
    (encode (.putb rd imm8)).toNat = ctlNumber 0x11 rd 0 0 0 0 imm8.toNat ∧
    (s.cmd.opnd.toNat < s.cfg.n →
      GivesBytes (.putb rd imm8) s rd (fun k => if k = s.cmd.opnd.toNat then imm8 else byteAt (s.reg rd) k)) ∧
    (s.cfg.n ≤ s.cmd.opnd.toNat →
      GivesBytes (.putb rd imm8) s rd (fun k => if k = s.cfg.n - 1 then imm8 else byteAt (s.reg rd) k))

/-- GETBU and PUTBU reach byte `idx` for `idx < N`, as GETB and PUTB do; for `idx >= N` the model stops with its one fault, as the
spec asks, and gives no next state (rules R124, R125, R126). -/
def Obligations.UncheckedAccessIsDefinedBelowN : Prop :=
  (∀ (s : State) (rs1 : Reg),
    (encode (.getbu rs1)).toNat = ctlNumber 0x12 0 rs1 0 0 0 0 ∧
    (s.cmd.opnd.toNat < s.cfg.n →
      GivesScalar (.getbu rs1) s (byteAt (s.reg rs1) s.cmd.opnd.toNat).toNat ∧ exec (.getbu rs1) s = exec (.getb rs1) s) ∧
    (s.cfg.n ≤ s.cmd.opnd.toNat → exec (.getbu rs1) s = .fault .uncheckedIndex)) ∧
  ∀ (s : State) (rd : Reg) (imm8 : Byte), (s.reg rd).length = s.cfg.n →
    (encode (.putbu rd imm8)).toNat = ctlNumber 0x13 rd 0 0 0 0 imm8.toNat ∧
    (s.cmd.opnd.toNat < s.cfg.n →
      GivesBytes (.putbu rd imm8) s rd (fun k => if k = s.cmd.opnd.toNat then imm8 else byteAt (s.reg rd) k) ∧
      exec (.putbu rd imm8) s = exec (.putb rd imm8) s) ∧
    (s.cfg.n ≤ s.cmd.opnd.toNat → exec (.putbu rd imm8) s = .fault .uncheckedIndex)

/-- RDA answers the register on the data output and changes nothing; it is the inverse of LDA (rule R127). -/
def Obligations.RdaReadsOutWhatLdaLoaded : Prop :=
  (∀ (s : State) (rs1 : Reg),
    (encode (.rda rs1)).toNat = ctlNumber 0x14 0 rs1 0 0 0 0 ∧
    ∃ t, exec (.rda rs1) s = .next t ∧ WritesNothing s t { status := .ok, res := 0, dout := s.reg rs1 }) ∧
  ∀ (s : State) (rd : Reg), s.cmd.wellFormed s.cfg = true →
    ∃ t u, exec (.lda rd) s = .next t ∧ exec (.rda rd) t = .next u ∧
      u.sent = t.sent ++ [{ status := .ok, res := 0, dout := s.cmd.din }]

/-! ## Bitwise algebra and comparison (spec/42_bitwise_compare.md) -/

/-- AND, OR, XOR, NOT work on each byte lane by itself, on the old values whichever registers coincide (rules R141 to R144;
spec/70_reset_and_hazards.md rule R340). -/
def Obligations.BitwiseCommandsWorkLaneByLane : Prop :=
  ∀ (s : State) (rd rs1 rs2 : Reg),
    (encode (.and rd rs1 rs2)).toNat = ctlNumber 0x20 rd rs1 rs2 0 0 0 ∧
    (encode (.or rd rs1 rs2)).toNat = ctlNumber 0x21 rd rs1 rs2 0 0 0 ∧
    (encode (.xor rd rs1 rs2)).toNat = ctlNumber 0x22 rd rs1 rs2 0 0 0 ∧
    (encode (.not rd rs1)).toNat = ctlNumber 0x23 rd rs1 0 0 0 0 ∧
    GivesBytes (.and rd rs1 rs2) s rd (fun k => byteAt (s.reg rs1) k &&& byteAt (s.reg rs2) k) ∧
    GivesBytes (.or rd rs1 rs2) s rd (fun k => byteAt (s.reg rs1) k ||| byteAt (s.reg rs2) k) ∧
    GivesBytes (.xor rd rs1 rs2) s rd (fun k => byteAt (s.reg rs1) k ^^^ byteAt (s.reg rs2) k) ∧
    GivesBytes (.not rd rs1) s rd (fun k => ~~~ byteAt (s.reg rs1) k)

/-- The same bit for bit, and as numbers: `V(NOT x) = 2^W - 1 - V(x)` (rules R140, R144). -/
def Obligations.BitwiseCommandsWorkBitByBit : Prop :=
  ∀ (s : State) (rd rs1 rs2 : Reg),
    GivesBits (.and rd rs1 rs2) s rd (fun p => bitAt (s.reg rs1) p && bitAt (s.reg rs2) p) ∧
    GivesBits (.or rd rs1 rs2) s rd (fun p => bitAt (s.reg rs1) p || bitAt (s.reg rs2) p) ∧
    GivesBits (.xor rd rs1 rs2) s rd (fun p => bitAt (s.reg rs1) p ^^ bitAt (s.reg rs2) p) ∧
    GivesBits (.not rd rs1) s rd (fun p => !bitAt (s.reg rs1) p) ∧
    ((s.reg rs1).length = s.cfg.n → GivesValue (.not rd rs1) s rd (2 ^ s.cfg.w - 1 - value (s.reg rs1)))

/-- The laws of the algebra on buffers of `n` bytes (rule R148). -/
def Obligations.BitwiseAlgebraLaws : Prop :=
  ∀ (n : Nat) (a b c : Buffer), a.length = n → b.length = n → c.length = n →
    orBuffers n (andBuffers n a b) (andBuffers n a (notBuffer n b)) = a ∧
    andBuffers n a b = andBuffers n b a ∧ orBuffers n a b = orBuffers n b a ∧ xorBuffers n a b = xorBuffers n b a ∧
    andBuffers n (andBuffers n a b) c = andBuffers n a (andBuffers n b c) ∧
    orBuffers n (orBuffers n a b) c = orBuffers n a (orBuffers n b c) ∧
    xorBuffers n (xorBuffers n a b) c = xorBuffers n a (xorBuffers n b c) ∧
    andBuffers n a a = a ∧ orBuffers n a a = a ∧ xorBuffers n a a = zeroBuffer n ∧
    notBuffer n (notBuffer n a) = a ∧
    notBuffer n (andBuffers n a b) = orBuffers n (notBuffer n a) (notBuffer n b) ∧
    popCount n (andBuffers n a b) + popCount n (orBuffers n a b) = popCount n a + popCount n b

/-- CMPEQ answers 1 when all N bytes agree, else 0, and changes nothing; for complete registers that is equality of the registers
and of their values (rule R145). -/
def Obligations.CmpeqDecidesEqualityOfRegisters : Prop :=
  ∀ (s : State) (rs1 rs2 : Reg),
    (encode (.cmpeq rs1 rs2)).toNat = ctlNumber 0x24 0 rs1 rs2 0 0 0 ∧
    ((∀ k < s.cfg.n, byteAt (s.reg rs1) k = byteAt (s.reg rs2) k) → GivesScalar (.cmpeq rs1 rs2) s 1) ∧
    (¬(∀ k < s.cfg.n, byteAt (s.reg rs1) k = byteAt (s.reg rs2) k) → GivesScalar (.cmpeq rs1 rs2) s 0) ∧
    ((s.reg rs1).length = s.cfg.n → (s.reg rs2).length = s.cfg.n →
      ((∀ k < s.cfg.n, byteAt (s.reg rs1) k = byteAt (s.reg rs2) k) ↔ s.reg rs1 = s.reg rs2) ∧
      (s.reg rs1 = s.reg rs2 ↔ value (s.reg rs1) = value (s.reg rs2)))

/-- CMPLT answers 1 when the first byte at which the registers differ, from index 0 up, is smaller in `rs1`, else 0, and changes
nothing (rule R147). -/
def Obligations.CmpltComparesFromByteZeroUp : Prop :=
  ∀ (s : State) (rs1 rs2 : Reg),
    (encode (.cmplt rs1 rs2)).toNat = ctlNumber 0x25 0 rs1 rs2 0 0 0 ∧
    ((∃ k < s.cfg.n, (∀ j < k, byteAt (s.reg rs1) j = byteAt (s.reg rs2) j) ∧
        (byteAt (s.reg rs1) k).toNat < (byteAt (s.reg rs2) k).toNat) → GivesScalar (.cmplt rs1 rs2) s 1) ∧
    ((¬∃ k < s.cfg.n, (∀ j < k, byteAt (s.reg rs1) j = byteAt (s.reg rs2) j) ∧
        (byteAt (s.reg rs1) k).toNat < (byteAt (s.reg rs2) k).toNat) → GivesScalar (.cmplt rs1 rs2) s 0)

/-- The order of CMPLT is decided by the first byte that differs, index 0 first, and is a strict total order on buffers of `n` bytes:
of `lt(a,c)`, `a = c`, `lt(c,a)` exactly one holds, and it is transitive. For one byte it is the order of the values; from two bytes on it is not (rule R146). -/
def Obligations.LexicographicOrderIsStrictAndTotal : Prop :=
  (∀ (n : Nat) (a c : Buffer), lexLess n a c = true ↔
    ∃ k < n, (∀ j < k, byteAt a j = byteAt c j) ∧ (byteAt a k).toNat < (byteAt c k).toNat) ∧
  (∀ (n : Nat) (a c : Buffer), a.length = n → c.length = n →
    (lexLess n a c = true ∨ a = c ∨ lexLess n c a = true) ∧ ¬(lexLess n a c = true ∧ a = c) ∧
      ¬(a = c ∧ lexLess n c a = true) ∧ ¬(lexLess n a c = true ∧ lexLess n c a = true)) ∧
  (∀ (n : Nat) (a b c : Buffer), lexLess n a b = true → lexLess n b c = true → lexLess n a c = true) ∧
  (∀ a c : Buffer, a.length = 1 → c.length = 1 → (lexLess 1 a c = true ↔ value a < value c)) ∧
  ∀ n, 2 ≤ n → ∃ a c : Buffer, a.length = n ∧ c.length = n ∧ lexLess n a c = true ∧ value c < value a

/-! ## Shifts and rotates (spec/43_shift.md, spec/44_rotate.md) -/

/-- SHL by `s`: as a number, `V * 2^s mod 2^W`, for every 64-bit `s`; the amount is not reduced (rules R160, R162). -/
def Obligations.ShlMultipliesByAPowerOfTwo : Prop :=
  ∀ (s : State) (rd rs1 : Reg), (s.reg rs1).length = s.cfg.n →
    (encode (.shl rd rs1)).toNat = ctlNumber 0x30 rd rs1 0 0 0 0 ∧
    GivesValue (.shl rd rs1) s rd (value (s.reg rs1) * 2 ^ s.cmd.opnd.toNat % 2 ^ s.cfg.w)

/-- SHR by `s`: as a number, `V div 2^s`, for every 64-bit `s`; logical, not reduced (rules R161, R163). -/
def Obligations.ShrDividesByAPowerOfTwo : Prop :=
  ∀ (s : State) (rd rs1 : Reg), (s.reg rs1).length = s.cfg.n →
    (encode (.shr rd rs1)).toNat = ctlNumber 0x31 rd rs1 0 0 0 0 ∧
    GivesValue (.shr rd rs1) s rd (value (s.reg rs1) / 2 ^ s.cmd.opnd.toNat)

/-- The laws of the shifts on buffers of `n` bytes (rule R164). -/
def Obligations.ShiftLaws : Prop :=
  (∀ (n : Nat) (x : Buffer), 0 < n → x.length = n →
    (∀ s, s < 8 * n → value (shr n (shl n x s) s) = value x % 2 ^ (8 * n - s)) ∧
    shl n x (8 * n) = zeroBuffer n ∧
    (∀ s, s < 8 * n → value (shl n (shr n x s) s) = value x - value x % 2 ^ s) ∧
    (∀ s t, shl n (shl n x s) t = shl n x (s + t)) ∧
    ∀ s t, shr n (shr n x s) t = shr n x (s + t)) ∧
  (∀ n, 2 ≤ n → shl n (0x80#8 :: zeroBuffer (n - 1)) 1 = 0x00#8 :: 0x01#8 :: zeroBuffer (n - 2)) ∧
  shl 1 [0x80#8] 1 = [0x00#8]

/-- ROL and ROR by `n`, bit for bit, with `k = n mod W` a true remainder: bit `p` goes to `(p + k) mod W`, and comes from there
(rules R180, R181, R182). -/
def Obligations.RotatesMoveEveryBitAroundTheRegister : Prop :=
  ∀ (s : State) (rd rs1 : Reg),
    (encode (.rol rd rs1)).toNat = ctlNumber 0x32 rd rs1 0 0 0 0 ∧
    (encode (.ror rd rs1)).toNat = ctlNumber 0x33 rd rs1 0 0 0 0 ∧
    (∃ t, exec (.rol rd rs1) s = .next t ∧
      WritesOnly s t rd { status := .ok, res := 0, dout := zeroBuffer s.cfg.n } ∧ (t.reg rd).length = s.cfg.n ∧
      ∀ p < s.cfg.w, bitAt (t.reg rd) ((p + s.cmd.opnd.toNat % s.cfg.w) % s.cfg.w) = bitAt (s.reg rs1) p) ∧
    GivesBits (.ror rd rs1) s rd (fun p => bitAt (s.reg rs1) ((p + s.cmd.opnd.toNat % s.cfg.w) % s.cfg.w))

/-- The laws of the rotates on buffers of `n` bytes, for every natural amount; the population count is kept (rules R181, R183). -/
def Obligations.RotateLaws : Prop :=
  ∀ (n : Nat) (x : Buffer), 0 < n → x.length = n →
    (∀ m, rotr n (rotl n x m) m = x ∧ rotl n (rotr n x m) m = x) ∧
    rotl n x (8 * n) = x ∧ rotr n x (8 * n) = x ∧
    (∀ m k, rotl n (rotl n x m) k = rotl n x (m % (8 * n) + k % (8 * n))) ∧
    (∀ m, rotr n x m = rotl n x (8 * n - m % (8 * n))) ∧
    ∀ m, popCount n (rotl n x m) = popCount n x ∧ popCount n (rotr n x m) = popCount n x

/-! ## Bits (spec/45_bit_mutation.md) -/

/-- SETBIT, CLRBIT, TGLBIT change bit `p` and no other; for `p >= W` the register keeps its value (rules R190 to R193). -/
def Obligations.BitMutatorsChangeOneBitOrNone : Prop :=
  ∀ (s : State) (rd : Reg), (s.reg rd).length = s.cfg.n →
    (encode (.setbit rd)).toNat = ctlNumber 0x40 rd 0 0 0 0 0 ∧
    (encode (.clrbit rd)).toNat = ctlNumber 0x41 rd 0 0 0 0 0 ∧
    (encode (.tglbit rd)).toNat = ctlNumber 0x42 rd 0 0 0 0 0 ∧
    GivesBits (.setbit rd) s rd (fun q => if q = s.cmd.opnd.toNat then true else bitAt (s.reg rd) q) ∧
    GivesBits (.clrbit rd) s rd (fun q => if q = s.cmd.opnd.toNat then false else bitAt (s.reg rd) q) ∧
    GivesBits (.tglbit rd) s rd (fun q => if q = s.cmd.opnd.toNat then !bitAt (s.reg rd) q else bitAt (s.reg rd) q) ∧
    (s.cfg.w ≤ s.cmd.opnd.toNat →
      GivesBytes (.setbit rd) s rd (byteAt (s.reg rd)) ∧ GivesBytes (.clrbit rd) s rd (byteAt (s.reg rd)) ∧
      GivesBytes (.tglbit rd) s rd (byteAt (s.reg rd)))

/-- TSTBIT answers bit `p` below `W`, and 0 from `W` on, whatever the register holds; nothing changes (rules R190, R194). -/
def Obligations.TstbitAnswersTheBitOrZero : Prop :=
  ∀ (s : State) (rs1 : Reg),
    (encode (.tstbit rs1)).toNat = ctlNumber 0x43 0 rs1 0 0 0 0 ∧
    (s.cmd.opnd.toNat < s.cfg.w → GivesScalar (.tstbit rs1) s (bitAt (s.reg rs1) s.cmd.opnd.toNat).toNat) ∧
    (s.cfg.w ≤ s.cmd.opnd.toNat → GivesScalar (.tstbit rs1) s 0)

/-- POPCNT answers how many bit indices below `W` hold a 1, without overflow for any N; nothing changes (rule R195). -/
def Obligations.PopcntCountsTheOneBits : Prop :=
  (∀ (s : State) (rs1 : Reg),
    (encode (.popcnt rs1)).toNat = ctlNumber 0x44 0 rs1 0 0 0 0 ∧
    GivesScalar (.popcnt rs1) s ((List.range s.cfg.w).countP fun p => bitAt (s.reg rs1) p)) ∧
  ∀ n, popCount n (zeroBuffer n) = 0 ∧ popCount n (onesBuffer n) = 8 * n

/-- The laws of the bit commands on buffers of `n` bytes (rule R196). -/
def Obligations.BitLevelLaws : Prop :=
  (∀ (n : Nat) (x : Buffer) (p : Nat), x.length = n →
    (p < 8 * n →
      testBit n (setBit n x p) p = true ∧ testBit n (clearBit n x p) p = false ∧
      testBit n (toggleBit n x p) p = !testBit n x p ∧
      (∀ q, q ≠ p → testBit n (setBit n x p) q = testBit n x q ∧ testBit n (clearBit n x p) q = testBit n x q ∧
        testBit n (toggleBit n x p) q = testBit n x q) ∧
      popCount n (setBit n x p) = popCount n x + (if testBit n x p = true then 0 else 1) ∧
      popCount n (clearBit n x p) + (if testBit n x p = true then 1 else 0) = popCount n x ∧
      (popCount n (toggleBit n x p) = popCount n x + 1 ∨ popCount n (toggleBit n x p) + 1 = popCount n x)) ∧
    (8 * n ≤ p → setBit n x p = x ∧ clearBit n x p = x ∧ toggleBit n x p = x)) ∧
  popCount 4 (orBuffers 4 (fromInt 4 4 0xF0F0F0F0#64) (fromInt 4 4 0x0F0F0F0F#64)) = 32 ∧
  ∀ n, 2 ≤ n → testBit n (shl n (setBit n (zeroBuffer n) 7) 1) 8 = true ∧
    popCount n (shl n (setBit n (zeroBuffer n) 7) 1) = 1

/-! ## Integers (spec/46_integer.md) -/

/-- TOINT answers the register's value modulo `2^(8*min(sz, N))`; nothing changes (rule R210). -/
def Obligations.TointAnswersTheLowBytes : Prop :=
  ∀ (s : State) (rs1 : Reg) (sz : Width),
    (encode (.toint rs1 sz)).toNat = ctlNumber 0x50 0 rs1 0 sz.code.toNat 0 0 ∧
    GivesScalar (.toint rs1 sz) s (value (s.reg rs1) % 2 ^ (8 * min sz.bytes s.cfg.n))

/-- LDI then TOINT of one width answers the integer when it fits the register, else the integer modulo `2^(8*N)`; TOINT then LDI
gives the register back exactly when the width covers it or the bytes above are zero (rule R211). -/
def Obligations.IntegerRoundTrip : Prop :=
  (∀ (s : State) (rd : Reg) (sz : Width), s.cmd.opnd.toNat < 2 ^ (8 * sz.bytes) →
    ∃ t, exec (.ldi rd sz) s = .next t ∧
      (sz.bytes ≤ s.cfg.n → GivesScalar (.toint rd sz) t s.cmd.opnd.toNat) ∧
      (s.cfg.n < sz.bytes → GivesScalar (.toint rd sz) t (s.cmd.opnd.toNat % 2 ^ (8 * s.cfg.n)))) ∧
  (∀ (s : State) (rd rs1 : Reg) (sz : Width), (s.reg rs1).length = s.cfg.n →
    ∃ t res u, exec (.toint rs1 sz) s = .next t ∧
      WritesNothing s t { status := .ok, res := res, dout := zeroBuffer s.cfg.n } ∧
      exec (.ldi rd sz) { t with cmd := { t.cmd with opnd := res } } = .next u ∧
      (u.reg rd = s.reg rs1 ↔
        s.cfg.n ≤ sz.bytes ∨ ∀ i, sz.bytes ≤ i → i < s.cfg.n → byteAt (s.reg rs1) i = 0x00#8)) ∧
  toInt 4 4 (orBuffers 4 (fromInt 4 4 0xF0F0F0F0#64) (fromInt 4 4 0x0F0F0F0F#64)) = 0xFFFFFFFF#64

/-! ## Endianness (spec/47_endian.md) -/

/-- REV reverses the bytes, whatever NATIVE is, and keeps the bits inside each byte (rules R220, R223). -/
def Obligations.RevReversesTheBytes : Prop :=
  (∀ (s : State) (rd rs1 : Reg),
    (encode (.rev rd rs1)).toNat = ctlNumber 0x60 rd rs1 0 0 0 0 ∧
    GivesBytes (.rev rd rs1) s rd (fun k => byteAt (s.reg rs1) (s.cfg.n - 1 - k))) ∧
  ∀ (n : Nat) (x : Buffer), x.length = n →
    (∀ i < n, ∀ j < 8, bitAt (rev n x) (8 * i + j) = bitAt x (8 * (n - 1 - i) + j)) ∧ rev n (rev n x) = x ∧
    (n = 1 → rev n x = x) ∧ (n % 2 = 1 → byteAt (rev n x) ((n - 1) / 2) = byteAt x ((n - 1) / 2))

/-- The named conversions copy when the order they name is the host's own and reverse the bytes when it is not; to and from are one
operation (rules R224 to R229). -/
def Obligations.NamedConversionsReverseOnAForeignHost : Prop :=
  ∀ (s : State) (rd rs1 : Reg), (s.reg rs1).length = s.cfg.n →
    (encode (.tole rd rs1)).toNat = ctlNumber 0x61 rd rs1 0 0 0 0 ∧
    (encode (.tobe rd rs1)).toNat = ctlNumber 0x62 rd rs1 0 0 0 0 ∧
    (encode (.tonet rd rs1)).toNat = ctlNumber 0x63 rd rs1 0 0 0 0 ∧
    (encode (.fromle rd rs1)).toNat = ctlNumber 0x64 rd rs1 0 0 0 0 ∧
    (encode (.frombe rd rs1)).toNat = ctlNumber 0x65 rd rs1 0 0 0 0 ∧
    (encode (.fromnet rd rs1)).toNat = ctlNumber 0x66 rd rs1 0 0 0 0 ∧
    (s.cfg.native = .little →
      (∀ i ∈ [Instr.tole rd rs1, .fromle rd rs1], GivesBytes i s rd (byteAt (s.reg rs1))) ∧
      ∀ i ∈ [Instr.tobe rd rs1, .tonet rd rs1, .frombe rd rs1, .fromnet rd rs1],
        GivesBytes i s rd (fun k => byteAt (s.reg rs1) (s.cfg.n - 1 - k))) ∧
    (s.cfg.native = .big →
      (∀ i ∈ [Instr.tole rd rs1, .fromle rd rs1],
        GivesBytes i s rd (fun k => byteAt (s.reg rs1) (s.cfg.n - 1 - k))) ∧
      ∀ i ∈ [Instr.tobe rd rs1, .tonet rd rs1, .frombe rd rs1, .fromnet rd rs1],
        GivesBytes i s rd (byteAt (s.reg rs1)))

/-- TOEND and FROMEND do as the named conversion of their order does; `native` copies on both hosts; the reserved code 3 raises
IllegalCommand (rules R221, R222, R230, R231). -/
def Obligations.ParameterisedConversionsFollowTheirOrder : Prop :=
  (∀ (s : State) (rd rs1 : Reg), (s.reg rs1).length = s.cfg.n →
    (∀ o : OrderName, (encode (.toend rd rs1 o)).toNat = ctlNumber 0x67 rd rs1 0 0 o.code.toNat 0 ∧
      (encode (.fromend rd rs1 o)).toNat = ctlNumber 0x68 rd rs1 0 0 o.code.toNat 0 ∧
      exec (.fromend rd rs1 o) s = exec (.toend rd rs1 o) s) ∧
    exec (.toend rd rs1 .little) s = exec (.tole rd rs1) s ∧ exec (.toend rd rs1 .big) s = exec (.tobe rd rs1) s ∧
    exec (.toend rd rs1 .native) s = exec (.mov rd rs1) s ∧
    ∀ o : OrderName, ∀ i ∈ [Instr.toend rd rs1 o, .fromend rd rs1 o], GivesBytes i s rd (fun k =>
      if o = .native ∨ (o = .little ∧ s.cfg.native = .little) ∨ (o = .big ∧ s.cfg.native = .big) then byteAt (s.reg rs1) k
      else byteAt (s.reg rs1) (s.cfg.n - 1 - k))) ∧
  ∀ w : CtlWord, (w.extractLsb' 0 8 = 0x67#8 ∨ w.extractLsb' 0 8 = 0x68#8) → w.extractLsb' 22 2 = 3#2 →
    ∃ e, decode w = .error e

/-- NORMLE and NORMBE write nothing when the order is the host's own, else reverse the register in place; they end as `TOLE rd, rd`
and `TOBE rd, rd` do (rules R232, R233). -/
def Obligations.NormalisationIsConversionInPlace : Prop :=
  ∀ (s : State) (rd : Reg),
    (encode (.normle rd)).toNat = ctlNumber 0x69 rd 0 0 0 0 0 ∧
    (encode (.normbe rd)).toNat = ctlNumber 0x6A rd 0 0 0 0 0 ∧
    exec (.normle rd) s = exec (.tole rd rd) s ∧ exec (.normbe rd) s = exec (.tobe rd rd) s ∧
    (s.cfg.native = .little →
      (∃ t, exec (.normle rd) s = .next t ∧
        WritesNothing s t { status := .ok, res := 0, dout := zeroBuffer s.cfg.n }) ∧
      GivesBytes (.normbe rd) s rd (fun k => byteAt (s.reg rd) (s.cfg.n - 1 - k))) ∧
    (s.cfg.native = .big →
      (∃ t, exec (.normbe rd) s = .next t ∧
        WritesNothing s t { status := .ok, res := 0, dout := zeroBuffer s.cfg.n }) ∧
      GivesBytes (.normle rd) s rd (fun k => byteAt (s.reg rd) (s.cfg.n - 1 - k)))

/-- TOINTE answers as TOINT does when the order is the host's own, else the last `min(sz, N)` bytes of the register read backwards;
the register keeps its value; the reserved code 3 is illegal (rule R234). -/
def Obligations.TointeReadsTheOtherEndOnAForeignOrder : Prop :=
  (∀ w : CtlWord, w.extractLsb' 0 8 = 0x6B#8 → w.extractLsb' 22 2 = 3#2 → ∃ e, decode w = .error e) ∧
  ∀ (s : State) (rs1 : Reg) (sz : Width) (o : OrderName),
    (encode (.tointe rs1 sz o)).toNat = ctlNumber 0x6B 0 rs1 0 sz.code.toNat o.code.toNat 0 ∧
    ((o = .native ∨ (o = .little ∧ s.cfg.native = .little) ∨ (o = .big ∧ s.cfg.native = .big)) →
      exec (.tointe rs1 sz o) s = exec (.toint rs1 sz) s ∧
      GivesScalar (.tointe rs1 sz o) s (value (s.reg rs1) % 2 ^ (8 * min sz.bytes s.cfg.n))) ∧
    (((o = .little ∧ s.cfg.native = .big) ∨ (o = .big ∧ s.cfg.native = .little)) →
      GivesScalar (.tointe rs1 sz o) s
        (((List.range (min sz.bytes s.cfg.n)).map fun k =>
          (byteAt (s.reg rs1) (s.cfg.n - 1 - k)).toNat * 2 ^ (8 * k)).sum))

/-- LDIE writes what LDI writes when the order is the host's own, else those N bytes reversed, zero fill and all; the reserved
code 3 is illegal (rule R235). -/
def Obligations.LdieReversesTheWholeBufferOnAForeignOrder : Prop :=
  (∀ w : CtlWord, w.extractLsb' 0 8 = 0x6C#8 → w.extractLsb' 22 2 = 3#2 → ∃ e, decode w = .error e) ∧
  ∀ (s : State) (rd : Reg) (sz : Width) (o : OrderName),
    (encode (.ldie rd sz o)).toNat = ctlNumber 0x6C rd 0 0 sz.code.toNat o.code.toNat 0 ∧
    ((o = .native ∨ (o = .little ∧ s.cfg.native = .little) ∨ (o = .big ∧ s.cfg.native = .big)) →
      exec (.ldie rd sz o) s = exec (.ldi rd sz) s ∧
      GivesBytes (.ldie rd sz o) s rd (fun k =>
        if k < min sz.bytes s.cfg.n then BitVec.ofNat 8 (s.cmd.opnd.toNat / 2 ^ (8 * k)) else 0x00#8)) ∧
    (((o = .little ∧ s.cfg.native = .big) ∨ (o = .big ∧ s.cfg.native = .little)) →
      GivesBytes (.ldie rd sz o) s rd (fun k =>
        if s.cfg.n - 1 - k < min sz.bytes s.cfg.n then
          BitVec.ofNat 8 (s.cmd.opnd.toNat / 2 ^ (8 * (s.cfg.n - 1 - k))) else 0x00#8))

/-- The laws of the conversions, on both hosts: each undoes itself, TOLE after TOBE is REV, LDIE then TOINTE of one order and width
answers the integer, reversal keeps the population count and equality, and does not keep the order (rule R236). -/
def Obligations.EndiannessLaws : Prop :=
  (∀ (c : Config) (x y : Buffer), x.length = c.n → y.length = c.n →
    rev c.n (rev c.n x) = x ∧ (∀ o, conv c (conv c x o) o = x) ∧
    conv c (conv c x .big) .little = rev c.n x ∧ conv c (conv c x .little) .big = rev c.n x ∧
    popCount c.n (rev c.n x) = popCount c.n x ∧ (∀ o, popCount c.n (conv c x o) = popCount c.n x) ∧
    equalBuffers c.n (rev c.n x) (rev c.n y) = equalBuffers c.n x y) ∧
  (∃ (n : Nat) (x y : Buffer), x.length = n ∧ y.length = n ∧ lexLess n x y = true ∧ lexLess n (rev n x) (rev n y) = false) ∧
  ∀ (s : State) (rd : Reg) (sz : Width) (o : OrderName), sz.bytes ≤ s.cfg.n →
    s.cmd.opnd.toNat < 2 ^ (8 * sz.bytes) →
    ∃ t, exec (.ldie rd sz o) s = .next t ∧ GivesScalar (.tointe rd sz o) t s.cmd.opnd.toNat

/-! ## Ports and mixed widths (spec/20_memory.md) -/

/-- Lane `i` of a data port is bits `8i+7 .. 8i`, the lanes read as a number are the port's number, and a buffer of `n` bytes is the
lanes of its value (rule R42; spec/00_scope.md section 7.2). -/
def Obligations.PortLanesAreTheBytesOfTheNumber : Prop :=
  (∀ (n bits : Nat), ∀ i < n, (byteAt (lanesOfBits n bits) i).toNat = bits / 2 ^ (8 * i) % 256) ∧
  (∀ n bits : Nat, bits < 2 ^ (8 * n) → bitsOfLanes (lanesOfBits n bits) = bits) ∧
  ∀ (n : Nat) (x : Buffer), x.length = n → lanesOfBits n (bitsOfLanes x) = x ∧ bitsOfLanes x < 2 ^ (8 * n)

/-- A register written by LDI.4 reads the same integer by GETB, TSTBIT and TOINT.2, for `N >= 4` (rule R44). -/
def Obligations.RegisterReadsConsistentlyAtEveryWidth : Prop :=
  ∀ (s : State) (rd : Reg), 4 ≤ s.cfg.n →
    ∃ t, exec (.ldi rd .w4) s = .next t ∧
      (∀ k, k < 4 → GivesScalar (.getb rd) { t with cmd := { t.cmd with opnd := BitVec.ofNat 64 k } }
        (s.cmd.opnd.toNat / 2 ^ (8 * k) % 256)) ∧
      (∀ p, p < 32 → GivesScalar (.tstbit rd) { t with cmd := { t.cmd with opnd := BitVec.ofNat 64 p } }
        (s.cmd.opnd.toNat / 2 ^ p % 2)) ∧
      GivesScalar (.toint rd .w2) t (s.cmd.opnd.toNat % 2 ^ 16)
end

