-- ==== Sys2Proof/Laws/Buffer.lean ====
section
/-! SUPPORT. What the buffer constructors and the byte read do: length and bytes of `build`, of a replaced byte, of the zero
buffer; a buffer is determined by its bytes. -/

namespace Sys2Proof

theorem Config.one_le_n (c : Config) : 1 ≤ c.n := by simp [Config.n]

@[simp] theorem Config.n_pos (c : Config) : 0 < c.n := by simp [Config.n]

/-- `N` fits the 32-bit output `cfg_n`. -/
theorem Config.n_lt (c : Config) : c.n < 2 ^ 32 := by
  have := c.top.isLt
  simp only [Config.n]; omega

end Sys2Proof

namespace Sys2Proof.Machine

@[simp] theorem length_build (n : Nat) (f : Nat → Byte) : (build n f).length = n := by simp [build]

@[simp] theorem length_zeroBuffer (n : Nat) : (zeroBuffer n).length = n := by simp [zeroBuffer]

@[simp] theorem length_setByte (x : Buffer) (i : Nat) (v : Byte) : (setByte x i v).length = x.length := by simp [setByte]

theorem byteAt_of_length_le {x : Buffer} {i : Nat} (h : x.length ≤ i) : byteAt x i = 0 := by
  simp [byteAt, List.getD_eq_getElem?_getD, List.getElem?_eq_none h]

theorem byteAt_of_lt {x : Buffer} {i : Nat} (h : i < x.length) : byteAt x i = x[i] := by
  simp [byteAt, List.getD_eq_getElem?_getD, List.getElem?_eq_getElem h]

@[simp] theorem byteAt_nil (i : Nat) : byteAt [] i = 0 := rfl

@[simp] theorem byteAt_cons_zero (v : Byte) (x : Buffer) : byteAt (v :: x) 0 = v := rfl

@[simp] theorem byteAt_cons_succ (v : Byte) (x : Buffer) (i : Nat) : byteAt (v :: x) (i + 1) = byteAt x i := by
  simp [byteAt]

/-- All that a built buffer holds. -/
theorem byteAt_build (n : Nat) (f : Nat → Byte) (i : Nat) : byteAt (build n f) i = if i < n then f i else 0 := by
  by_cases h : i < n
  · rw [byteAt_of_lt (by simpa using h)]; simp [build, h]
  · rw [byteAt_of_length_le (by simpa using h)]; simp [h]

theorem byteAt_build_lt {n : Nat} {f : Nat → Byte} {i : Nat} (h : i < n) : byteAt (build n f) i = f i := by
  simp [byteAt_build, h]

@[simp] theorem byteAt_zeroBuffer (n i : Nat) : byteAt (zeroBuffer n) i = 0 := by
  by_cases h : i < n
  · rw [byteAt_of_lt (by simpa using h)]; simp [zeroBuffer]
  · exact byteAt_of_length_le (by simpa using h)

/-- All that a buffer with one byte replaced holds. -/
theorem byteAt_setByte (x : Buffer) (i : Nat) (v : Byte) (k : Nat) :
    byteAt (setByte x i v) k = if k = i ∧ i < x.length then v else byteAt x k := by
  by_cases hk : k < x.length
  · rw [byteAt_of_lt (by simpa using hk), byteAt_of_lt hk]
    by_cases e : k = i
    · subst e; simp [setByte, hk]
    · have e' : i ≠ k := fun h => e h.symm
      simp [setByte, e, e']
  · rw [byteAt_of_length_le (by simpa using hk), byteAt_of_length_le (by omega)]
    have : ¬ (k = i ∧ i < x.length) := by omega
    simp [this]

/-- Two buffers of the same length with the same bytes are equal. -/
theorem buffer_ext {x y : Buffer} (hl : x.length = y.length) (h : ∀ i < x.length, byteAt x i = byteAt y i) : x = y := by
  apply List.ext_getElem hl
  intro i h1 h2
  have := h i h1
  rwa [byteAt_of_lt h1, byteAt_of_lt h2] at this

/-- A buffer of `n` bytes is built from its own bytes. -/
theorem build_byteAt {n : Nat} {x : Buffer} (h : x.length = n) : build n (byteAt x) = x :=
  buffer_ext (by simp [h]) fun i hi => byteAt_build_lt (by simpa using hi)

theorem build_congr {n : Nat} {f g : Nat → Byte} (h : ∀ i < n, f i = g i) : build n f = build n g :=
  List.map_congr_left fun i hi => h i (List.mem_range.mp hi)

end Sys2Proof.Machine
end

