-- ==== Sys2Proof/Laws/State.lean ====
section
/-! SUPPORT. The small lemmas of the state record: one for each field after each update, true by rfl, and what a register read
gives after a register write. -/

namespace Sys2Proof.Machine

/-! `State.setReg` -/

@[simp] theorem State.setReg_cfg (s : State) (r : Reg) (y : Buffer) : (s.setReg r y).cfg = s.cfg := rfl
@[simp] theorem State.setReg_b (s : State) (r : Reg) (y : Buffer) : (s.setReg r y).b = s.b.set r.val y := rfl
@[simp] theorem State.setReg_flt (s : State) (r : Reg) (y : Buffer) : (s.setReg r y).flt = s.flt := rfl
@[simp] theorem State.setReg_cause (s : State) (r : Reg) (y : Buffer) : (s.setReg r y).cause = s.cause := rfl
@[simp] theorem State.setReg_fctl (s : State) (r : Reg) (y : Buffer) : (s.setReg r y).fctl = s.fctl := rfl
@[simp] theorem State.setReg_host (s : State) (r : Reg) (y : Buffer) : (s.setReg r y).host = s.host := rfl
@[simp] theorem State.setReg_cmd (s : State) (r : Reg) (y : Buffer) : (s.setReg r y).cmd = s.cmd := rfl
@[simp] theorem State.setReg_sent (s : State) (r : Reg) (y : Buffer) : (s.setReg r y).sent = s.sent := rfl

/-! `State.respond` -/

@[simp] theorem State.respond_cfg (s : State) (r : Response) : (s.respond r).cfg = s.cfg := rfl
@[simp] theorem State.respond_b (s : State) (r : Response) : (s.respond r).b = s.b := rfl
@[simp] theorem State.respond_flt (s : State) (r : Response) : (s.respond r).flt = s.flt := rfl
@[simp] theorem State.respond_cause (s : State) (r : Response) : (s.respond r).cause = s.cause := rfl
@[simp] theorem State.respond_fctl (s : State) (r : Response) : (s.respond r).fctl = s.fctl := rfl
@[simp] theorem State.respond_host (s : State) (r : Response) : (s.respond r).host = s.host := rfl
@[simp] theorem State.respond_cmd (s : State) (r : Response) : (s.respond r).cmd = s.cmd := rfl
@[simp] theorem State.respond_sent (s : State) (r : Response) : (s.respond r).sent = s.sent ++ [r] := rfl
@[simp] theorem State.respond_reg (s : State) (r : Response) (q : Reg) : (s.respond r).reg q = s.reg q := rfl

/-! `State.writeBack` -/

@[simp] theorem State.writeBack_cfg (s : State) (rd : Reg) (y : Buffer) : (s.writeBack rd y).cfg = s.cfg := rfl
@[simp] theorem State.writeBack_b (s : State) (rd : Reg) (y : Buffer) : (s.writeBack rd y).b = s.b.set rd.val y := rfl
@[simp] theorem State.writeBack_flt (s : State) (rd : Reg) (y : Buffer) : (s.writeBack rd y).flt = s.flt := rfl
@[simp] theorem State.writeBack_cause (s : State) (rd : Reg) (y : Buffer) : (s.writeBack rd y).cause = s.cause := rfl
@[simp] theorem State.writeBack_fctl (s : State) (rd : Reg) (y : Buffer) : (s.writeBack rd y).fctl = s.fctl := rfl
@[simp] theorem State.writeBack_host (s : State) (rd : Reg) (y : Buffer) : (s.writeBack rd y).host = s.host := rfl
@[simp] theorem State.writeBack_cmd (s : State) (rd : Reg) (y : Buffer) : (s.writeBack rd y).cmd = s.cmd := rfl
@[simp] theorem State.writeBack_sent (s : State) (rd : Reg) (y : Buffer) : (s.writeBack rd y).sent = s.sent ++ [plainResponse s.cfg] := rfl

/-! `State.returnScalar` -/

@[simp] theorem State.returnScalar_cfg (s : State) (v : Scalar) : (s.returnScalar v).cfg = s.cfg := rfl
@[simp] theorem State.returnScalar_b (s : State) (v : Scalar) : (s.returnScalar v).b = s.b := rfl
@[simp] theorem State.returnScalar_flt (s : State) (v : Scalar) : (s.returnScalar v).flt = s.flt := rfl
@[simp] theorem State.returnScalar_cause (s : State) (v : Scalar) : (s.returnScalar v).cause = s.cause := rfl
@[simp] theorem State.returnScalar_fctl (s : State) (v : Scalar) : (s.returnScalar v).fctl = s.fctl := rfl
@[simp] theorem State.returnScalar_host (s : State) (v : Scalar) : (s.returnScalar v).host = s.host := rfl
@[simp] theorem State.returnScalar_cmd (s : State) (v : Scalar) : (s.returnScalar v).cmd = s.cmd := rfl
@[simp] theorem State.returnScalar_sent (s : State) (v : Scalar) : (s.returnScalar v).sent = s.sent ++ [scalarResponse s.cfg v] := rfl
@[simp] theorem State.returnScalar_reg (s : State) (v : Scalar) (q : Reg) : (s.returnScalar v).reg q = s.reg q := rfl

/-! `State.returnBuffer` -/

@[simp] theorem State.returnBuffer_cfg (s : State) (y : Buffer) : (s.returnBuffer y).cfg = s.cfg := rfl
@[simp] theorem State.returnBuffer_b (s : State) (y : Buffer) : (s.returnBuffer y).b = s.b := rfl
@[simp] theorem State.returnBuffer_flt (s : State) (y : Buffer) : (s.returnBuffer y).flt = s.flt := rfl
@[simp] theorem State.returnBuffer_cause (s : State) (y : Buffer) : (s.returnBuffer y).cause = s.cause := rfl
@[simp] theorem State.returnBuffer_fctl (s : State) (y : Buffer) : (s.returnBuffer y).fctl = s.fctl := rfl
@[simp] theorem State.returnBuffer_host (s : State) (y : Buffer) : (s.returnBuffer y).host = s.host := rfl
@[simp] theorem State.returnBuffer_cmd (s : State) (y : Buffer) : (s.returnBuffer y).cmd = s.cmd := rfl
@[simp] theorem State.returnBuffer_sent (s : State) (y : Buffer) : (s.returnBuffer y).sent = s.sent ++ [bufferResponse y] := rfl
@[simp] theorem State.returnBuffer_reg (s : State) (y : Buffer) (q : Reg) : (s.returnBuffer y).reg q = s.reg q := rfl

/-! `State.accept` -/

@[simp] theorem State.accept_cfg (s : State) (c : Command) (rest : List HostEvent) : (s.accept c rest).cfg = s.cfg := rfl
@[simp] theorem State.accept_b (s : State) (c : Command) (rest : List HostEvent) : (s.accept c rest).b = s.b := rfl
@[simp] theorem State.accept_flt (s : State) (c : Command) (rest : List HostEvent) : (s.accept c rest).flt = s.flt := rfl
@[simp] theorem State.accept_cause (s : State) (c : Command) (rest : List HostEvent) : (s.accept c rest).cause = s.cause := rfl
@[simp] theorem State.accept_fctl (s : State) (c : Command) (rest : List HostEvent) : (s.accept c rest).fctl = s.fctl := rfl
@[simp] theorem State.accept_host (s : State) (c : Command) (rest : List HostEvent) : (s.accept c rest).host = rest := rfl
@[simp] theorem State.accept_cmd (s : State) (c : Command) (rest : List HostEvent) : (s.accept c rest).cmd = c := rfl
@[simp] theorem State.accept_sent (s : State) (c : Command) (rest : List HostEvent) : (s.accept c rest).sent = s.sent := rfl
@[simp] theorem State.accept_reg (s : State) (c : Command) (rest : List HostEvent) (q : Reg) : (s.accept c rest).reg q = s.reg q := rfl

/-! `State.raiseIllegal` -/

@[simp] theorem State.raiseIllegal_cfg (s : State) (ctl : CtlWord) : (s.raiseIllegal ctl).cfg = s.cfg := rfl
@[simp] theorem State.raiseIllegal_b (s : State) (ctl : CtlWord) : (s.raiseIllegal ctl).b = s.b := rfl
@[simp] theorem State.raiseIllegal_flt (s : State) (ctl : CtlWord) : (s.raiseIllegal ctl).flt = true := rfl
@[simp] theorem State.raiseIllegal_cause (s : State) (ctl : CtlWord) : (s.raiseIllegal ctl).cause = 1 := rfl
@[simp] theorem State.raiseIllegal_fctl (s : State) (ctl : CtlWord) : (s.raiseIllegal ctl).fctl = ctl := rfl
@[simp] theorem State.raiseIllegal_host (s : State) (ctl : CtlWord) : (s.raiseIllegal ctl).host = s.host := rfl
@[simp] theorem State.raiseIllegal_cmd (s : State) (ctl : CtlWord) : (s.raiseIllegal ctl).cmd = s.cmd := rfl
@[simp] theorem State.raiseIllegal_sent (s : State) (ctl : CtlWord) : (s.raiseIllegal ctl).sent = s.sent ++ [{ status := .illegal, res := 0, dout := zeroBuffer s.cfg.n }] := rfl
@[simp] theorem State.raiseIllegal_reg (s : State) (ctl : CtlWord) (q : Reg) : (s.raiseIllegal ctl).reg q = s.reg q := rfl

/-! `State.reject` -/

@[simp] theorem State.reject_cfg (s : State) : (s.reject).cfg = s.cfg := rfl
@[simp] theorem State.reject_b (s : State) : (s.reject).b = s.b := rfl
@[simp] theorem State.reject_flt (s : State) : (s.reject).flt = s.flt := rfl
@[simp] theorem State.reject_cause (s : State) : (s.reject).cause = s.cause := rfl
@[simp] theorem State.reject_fctl (s : State) : (s.reject).fctl = s.fctl := rfl
@[simp] theorem State.reject_host (s : State) : (s.reject).host = s.host := rfl
@[simp] theorem State.reject_cmd (s : State) : (s.reject).cmd = s.cmd := rfl
@[simp] theorem State.reject_sent (s : State) : (s.reject).sent = s.sent ++ [{ status := .rejected, res := 0, dout := zeroBuffer s.cfg.n }] := rfl
@[simp] theorem State.reject_reg (s : State) (q : Reg) : (s.reject).reg q = s.reg q := rfl

/-! `State.applyReset` -/

@[simp] theorem State.applyReset_cfg (s : State) : (s.applyReset).cfg = s.cfg := rfl
@[simp] theorem State.applyReset_b (s : State) : (s.applyReset).b = Vector.replicate nreg (zeroBuffer s.cfg.n) := rfl
@[simp] theorem State.applyReset_flt (s : State) : (s.applyReset).flt = false := rfl
@[simp] theorem State.applyReset_cause (s : State) : (s.applyReset).cause = 0 := rfl
@[simp] theorem State.applyReset_fctl (s : State) : (s.applyReset).fctl = 0 := rfl
@[simp] theorem State.applyReset_host (s : State) : (s.applyReset).host = s.host := rfl
@[simp] theorem State.applyReset_cmd (s : State) : (s.applyReset).cmd = s.cmd := rfl
@[simp] theorem State.applyReset_sent (s : State) : (s.applyReset).sent = s.sent := rfl

/-! `State.idle` -/

@[simp] theorem State.idle_eq (s : State) : s.idle = s := rfl

/-! Registers. -/

theorem State.reg_eq (s : State) (r : Reg) : s.reg r = s.b[r.val] := rfl

@[simp] theorem State.setReg_reg_self (s : State) (r : Reg) (y : Buffer) : (s.setReg r y).reg r = y := by
  simp [State.reg, State.setReg]

theorem State.setReg_reg_other (s : State) {r q : Reg} (y : Buffer) (h : q ≠ r) : (s.setReg r y).reg q = s.reg q := by
  have hv : r.val ≠ q.val := fun e => h (Fin.ext e.symm)
  simp [State.reg, State.setReg, Vector.getElem_set_ne, hv]

@[simp] theorem State.writeBack_reg_self (s : State) (rd : Reg) (y : Buffer) : (s.writeBack rd y).reg rd = y :=
  State.setReg_reg_self s rd y

theorem State.writeBack_reg_other (s : State) {rd q : Reg} (y : Buffer) (h : q ≠ rd) :
    (s.writeBack rd y).reg q = s.reg q :=
  State.setReg_reg_other s y h

@[simp] theorem State.applyReset_reg (s : State) (q : Reg) : s.applyReset.reg q = zeroBuffer s.cfg.n := by
  simp [State.reg, State.applyReset]

@[simp] theorem State.resetFor_reg (c : Config) (q : Reg) : (State.resetFor c).reg q = zeroBuffer c.n := by
  simp [State.reg, State.resetFor]

/-- Writing back the value a register holds changes no register. -/
theorem State.setReg_same (s : State) (r : Reg) : s.setReg r (s.reg r) = s := by
  simp [State.reg, State.setReg]

/-! `State.resetFor` -/

@[simp] theorem State.resetFor_cfg (c : Config) : (State.resetFor c).cfg = c := rfl
@[simp] theorem State.resetFor_flt (c : Config) : (State.resetFor c).flt = false := rfl
@[simp] theorem State.resetFor_cause (c : Config) : (State.resetFor c).cause = 0 := rfl
@[simp] theorem State.resetFor_fctl (c : Config) : (State.resetFor c).fctl = 0 := rfl
@[simp] theorem State.resetFor_host (c : Config) : (State.resetFor c).host = [] := rfl
@[simp] theorem State.resetFor_sent (c : Config) : (State.resetFor c).sent = [] := rfl

end Sys2Proof.Machine
end

