-- ==== Sys2Proof/Laws/Ops.lean ====
section
/-! SUPPORT. One lemma for each shared operation over buffers: its length and each of its bytes (or, for the operations that keep
the operand in a corner case, the equation of each case). -/

namespace Sys2Proof.Machine

/-! ## Construction -/

@[simp] theorem length_onesBuffer (n : Nat) : (onesBuffer n).length = n := length_build _ _
@[simp] theorem length_ofValue (n v : Nat) : (ofValue n v).length = n := length_build _ _
@[simp] theorem length_fillBuffer (n : Nat) (v : Byte) : (fillBuffer n v).length = n := length_build _ _
@[simp] theorem length_copyLanes (n : Nat) (x : Buffer) : (copyLanes n x).length = n := length_build _ _
@[simp] theorem length_copyPrefix (n len : Nat) (x : Buffer) : (copyPrefix n len x).length = n := length_build _ _
@[simp] theorem length_fromInt (n sz : Nat) (v : Scalar) : (fromInt n sz v).length = n := length_build _ _

theorem byteAt_onesBuffer {n i : Nat} (h : i < n) : byteAt (onesBuffer n) i = 0xFF#8 := byteAt_build_lt h

theorem byteAt_ofValue {n v i : Nat} (h : i < n) : byteAt (ofValue n v) i = BitVec.ofNat 8 (v / 2 ^ (8 * i)) :=
  byteAt_build_lt h

theorem byteAt_fillBuffer {n i : Nat} {v : Byte} (h : i < n) : byteAt (fillBuffer n v) i = v := byteAt_build_lt h

theorem byteAt_copyLanes {n i : Nat} {x : Buffer} (h : i < n) : byteAt (copyLanes n x) i = byteAt x i := byteAt_build_lt h

theorem byteAt_copyPrefix {n len i : Nat} {x : Buffer} (h : i < n) :
    byteAt (copyPrefix n len x) i = if i < min len n then byteAt x i else 0 := byteAt_build_lt h

theorem byteAt_fromInt {n sz i : Nat} {v : Scalar} (h : i < n) :
    byteAt (fromInt n sz v) i = if i < min sz n then scalarByte v i else 0 := byteAt_build_lt h

/-! ## Bitwise algebra -/

@[simp] theorem length_andBuffers (n : Nat) (x y : Buffer) : (andBuffers n x y).length = n := length_build _ _
@[simp] theorem length_orBuffers (n : Nat) (x y : Buffer) : (orBuffers n x y).length = n := length_build _ _
@[simp] theorem length_xorBuffers (n : Nat) (x y : Buffer) : (xorBuffers n x y).length = n := length_build _ _
@[simp] theorem length_notBuffer (n : Nat) (x : Buffer) : (notBuffer n x).length = n := length_build _ _

theorem byteAt_andBuffers {n i : Nat} {x y : Buffer} (h : i < n) :
    byteAt (andBuffers n x y) i = byteAt x i &&& byteAt y i := byteAt_build_lt h

theorem byteAt_orBuffers {n i : Nat} {x y : Buffer} (h : i < n) :
    byteAt (orBuffers n x y) i = byteAt x i ||| byteAt y i := byteAt_build_lt h

theorem byteAt_xorBuffers {n i : Nat} {x y : Buffer} (h : i < n) :
    byteAt (xorBuffers n x y) i = byteAt x i ^^^ byteAt y i := byteAt_build_lt h

theorem byteAt_notBuffer {n i : Nat} {x : Buffer} (h : i < n) : byteAt (notBuffer n x) i = ~~~ byteAt x i :=
  byteAt_build_lt h

/-! ## Shifts -/

theorem shl_zero (n : Nat) (x : Buffer) : shl n x 0 = x := by simp [shl]

theorem shl_of_width_le {n s : Nat} (x : Buffer) (hn : 0 < n) (h : 8 * n ≤ s) : shl n x s = zeroBuffer n := by
  have : s ≠ 0 := by omega
  simp [shl, this, h]

theorem shl_between {n s : Nat} (x : Buffer) (h0 : s ≠ 0) (h : s < 8 * n) :
    shl n x s = build n fun i => shlByte x (s / 8) (s % 8) i := by
  have : ¬ 8 * n ≤ s := by omega
  simp [shl, h0, this]

theorem length_shl {n : Nat} {x : Buffer} (s : Nat) (h : x.length = n) : (shl n x s).length = n := by
  unfold shl; split
  · exact h
  · split <;> simp

theorem shr_zero (n : Nat) (x : Buffer) : shr n x 0 = x := by simp [shr]

theorem shr_of_width_le {n s : Nat} (x : Buffer) (hn : 0 < n) (h : 8 * n ≤ s) : shr n x s = zeroBuffer n := by
  have : s ≠ 0 := by omega
  simp [shr, this, h]

theorem shr_between {n s : Nat} (x : Buffer) (h0 : s ≠ 0) (h : s < 8 * n) :
    shr n x s = build n fun i => shrByte n x (s / 8) (s % 8) i := by
  have : ¬ 8 * n ≤ s := by omega
  simp [shr, h0, this]

theorem length_shr {n : Nat} {x : Buffer} (s : Nat) (h : x.length = n) : (shr n x s).length = n := by
  unfold shr; split
  · exact h
  · split <;> simp

@[simp] theorem length_rotl (n : Nat) (x : Buffer) (m : Nat) : (rotl n x m).length = n := length_orBuffers _ _ _

@[simp] theorem length_rotr (n : Nat) (x : Buffer) (m : Nat) : (rotr n x m).length = n := length_orBuffers _ _ _

/-! ## Single bits -/

theorem mutateBit_in_range {n p : Nat} (x : Buffer) (f : Byte → Byte) (h : p < 8 * n) :
    mutateBit n x p f = setByte x (p / 8) (f (byteAt x (p / 8))) := by simp [mutateBit, h]

theorem mutateBit_out_of_range {n p : Nat} (x : Buffer) (f : Byte → Byte) (h : 8 * n ≤ p) :
    mutateBit n x p f = x := by
  have : ¬ p < 8 * n := by omega
  simp [mutateBit, this]

@[simp] theorem length_mutateBit (n : Nat) (x : Buffer) (p : Nat) (f : Byte → Byte) :
    (mutateBit n x p f).length = x.length := by
  unfold mutateBit; split <;> simp

@[simp] theorem length_setBit (n : Nat) (x : Buffer) (p : Nat) : (setBit n x p).length = x.length :=
  length_mutateBit _ _ _ _
@[simp] theorem length_clearBit (n : Nat) (x : Buffer) (p : Nat) : (clearBit n x p).length = x.length :=
  length_mutateBit _ _ _ _
@[simp] theorem length_toggleBit (n : Nat) (x : Buffer) (p : Nat) : (toggleBit n x p).length = x.length :=
  length_mutateBit _ _ _ _

/-! ## Reversal and conversion -/

@[simp] theorem length_rev (n : Nat) (x : Buffer) : (rev n x).length = n := length_build _ _

theorem byteAt_rev {n i : Nat} {x : Buffer} (h : i < n) : byteAt (rev n x) i = byteAt x (n - 1 - i) := byteAt_build_lt h

theorem conv_native {c : Config} {o : OrderName} (x : Buffer) (h : resolve c.native o = c.native) : conv c x o = x := by
  simp [conv, h]

theorem conv_foreign {c : Config} {o : OrderName} (x : Buffer) (h : resolve c.native o ≠ c.native) :
    conv c x o = rev c.n x := by
  simp [conv, h]

theorem length_conv {c : Config} {x : Buffer} (o : OrderName) (h : x.length = c.n) : (conv c x o).length = c.n := by
  unfold conv; split
  · exact h
  · simp

/-! ## The byte index and the truth values -/

theorem clampIndex_lt {n : Nat} (hn : 0 < n) (idx : Nat) : clampIndex n idx < n := by
  unfold clampIndex; split <;> omega

theorem clampIndex_of_lt {n idx : Nat} (h : idx < n) : clampIndex n idx = idx := by simp [clampIndex, h]

theorem clampIndex_of_le {n idx : Nat} (h : n ≤ idx) : clampIndex n idx = n - 1 := by
  have : ¬ idx < n := by omega
  simp [clampIndex, this]

@[simp] theorem truth_toNat (v : Bool) : (truth v).toNat = v.toNat := by cases v <;> rfl

theorem equalBuffers_iff (n : Nat) (x y : Buffer) :
    equalBuffers n x y = true ↔ ∀ i < n, byteAt x i = byteAt y i := by
  simp [equalBuffers]

theorem lexLess_iff (n : Nat) (x y : Buffer) :
    lexLess n x y = true ↔
      ∃ k < n, (∀ j < k, byteAt x j = byteAt y j) ∧ (byteAt x k).toNat < (byteAt y k).toNat := by
  simp [lexLess]

end Sys2Proof.Machine
end

