-- ==== Sys2Proof/Laws/Value.lean ====
section
/-! SUPPORT. A buffer as a number and as bits: bit `p` of `value x` is `bitAt x p`, a buffer is determined by its bits and by its
value (spec/00_scope.md rule R14 and section 7.2). -/

namespace Sys2Proof.Machine

@[simp] theorem value_nil : value [] = 0 := rfl

theorem value_cons (v : Byte) (x : Buffer) : value (v :: x) = v.toNat + 256 * value x := rfl

theorem value_lt (x : Buffer) : value x < 2 ^ (8 * x.length) := by
  induction x with
  | nil => simp
  | cons v x ih =>
    have hv := v.isLt
    have e : 2 ^ (8 * (v :: x).length) = 256 * 2 ^ (8 * x.length) := by
      rw [List.length_cons, Nat.mul_add, Nat.pow_add]; omega
    rw [value_cons, e]; omega

theorem bitAt_of_length_le {x : Buffer} {p : Nat} (h : 8 * x.length ≤ p) : bitAt x p = false := by
  rw [bitAt, byteAt_of_length_le (by omega)]; simp

theorem value_testBit (x : Buffer) (p : Nat) : (value x).testBit p = bitAt x p := by
  induction x generalizing p with
  | nil => simp [bitAt]
  | cons v x ih =>
    have hv := v.isLt
    have e : value (v :: x) = 2 ^ 8 * value x + v.toNat := by rw [value_cons]; omega
    rw [e, Nat.testBit_two_pow_mul_add _ hv]
    by_cases h : p < 8
    · have h0 : p / 8 = 0 := by omega
      have h1 : p % 8 = p := by omega
      simp [h, bitAt, h0, h1, BitVec.getLsbD]
    · have h0 : p / 8 = (p - 8) / 8 + 1 := by omega
      have h1 : p % 8 = (p - 8) % 8 := by omega
      simp [h, bitAt, h0, h1, ih]

theorem bitAt_eq_byteAt (x : Buffer) (i j : Nat) (h : j < 8) : bitAt x (8 * i + j) = (byteAt x i).getLsbD j := by
  have h0 : (8 * i + j) / 8 = i := by omega
  have h1 : (8 * i + j) % 8 = j := by omega
  rw [bitAt, h0, h1]

/-- Two buffers of one length with the same bits are equal. -/
theorem buffer_ext_bits {x y : Buffer} (hl : x.length = y.length) (h : ∀ p < 8 * x.length, bitAt x p = bitAt y p) :
    x = y := by
  refine buffer_ext hl fun i hi => ?_
  apply BitVec.eq_of_getLsbD_eq
  intro j hj
  have := h (8 * i + j) (by omega)
  rwa [bitAt_eq_byteAt _ _ _ hj, bitAt_eq_byteAt _ _ _ hj] at this

/-- Two buffers of one length with the same value are equal. -/
theorem value_injective {x y : Buffer} (hl : x.length = y.length) (h : value x = value y) : x = y :=
  buffer_ext_bits hl fun p _ => by rw [← value_testBit, ← value_testBit, h]

/-- The bits of a built buffer. -/
theorem bitAt_build {n p : Nat} (f : Nat → Byte) (h : p < 8 * n) : bitAt (build n f) p = (f (p / 8)).getLsbD (p % 8) := by
  rw [bitAt, byteAt_build_lt (by omega)]

@[simp] theorem bitAt_zeroBuffer (n p : Nat) : bitAt (zeroBuffer n) p = false := by simp [bitAt]

@[simp] theorem value_zeroBuffer (n : Nat) : value (zeroBuffer n) = 0 :=
  Nat.eq_of_testBit_eq fun p => by rw [value_testBit]; simp

end Sys2Proof.Machine
end

