-- ==== Sys2Proof/Laws/Bits.lean ====
section
/-! SUPPORT. The shifts, the tested bit, the counts and the scalar bytes, each said once by bits (spec/43_shift.md rules R160, R161;
spec/45_bit_mutation.md rules R194, R195; spec/20_memory.md rule R43). -/

namespace Sys2Proof.Machine

theorem testBit_in_range {n p : Nat} (x : Buffer) (h : p < 8 * n) : testBit n x p = bitAt x p := by simp [testBit, h]

theorem testBit_out_of_range {n p : Nat} (x : Buffer) (h : 8 * n ≤ p) : testBit n x p = false := by
  have : ¬ p < 8 * n := by omega
  simp [testBit, this]

/-- The count of a byte, bit by bit. -/
theorem popcount8_eq_countP (v : Byte) : popcount8 v = (List.range 8).countP fun j => v.getLsbD j := by
  simp [popcount8, List.range_succ, List.countP_cons, Bool.toNat, cond_eq_ite]
  omega

/-- The count of a buffer is the number of bit indices that hold a 1. -/
theorem popCount_eq_countP (n : Nat) (x : Buffer) :
    popCount n x = (List.range (8 * n)).countP fun p => bitAt x p := by
  induction n with
  | zero => rfl
  | succ n ih =>
    have e : List.range (8 * (n + 1)) = List.range (8 * n) ++ (List.range 8).map (8 * n + ·) := by
      rw [Nat.mul_succ, List.range_add]
    rw [e, List.countP_append, ← ih]
    have : popCount (n + 1) x = popCount n x + popcount8 (byteAt x n) := by simp [popCount, List.range_succ]
    rw [this, popcount8_eq_countP, List.countP_map]
    congr 1
    refine List.countP_congr fun j hj => ?_
    have hj : j < 8 := by simpa using hj
    have h1 : (8 * n + j) / 8 = n := by omega
    have h2 : (8 * n + j) % 8 = j := by omega
    simp [bitAt, h1, h2]

theorem popCount_le (n : Nat) (x : Buffer) : popCount n x ≤ 8 * n := by
  rw [popCount_eq_countP]; exact List.countP_le_length.trans (by simp)

/-- A byte of a scalar integer as a number. -/
theorem scalarByte_eq (v : Scalar) (k : Nat) : scalarByte v k = BitVec.ofNat 8 (v.toNat / 2 ^ (8 * k)) := by
  apply BitVec.eq_of_toNat_eq
  simp [scalarByte, BitVec.extractLsb'_toNat, Nat.shiftRight_eq_div_pow]

/-- Every bit of a left shift comes from `s` below, or is 0. -/
theorem bitAt_shl {n p : Nat} (x : Buffer) (s : Nat) (hp : p < 8 * n) :
    bitAt (shl n x s) p = (decide (s ≤ p) && bitAt x (p - s)) := by
  unfold shl
  split
  · subst s; simp
  · split
    · have : ¬ s ≤ p := by omega
      simp [this]
    · rw [bitAt_build _ hp]
      simp only [shlByte, bitAt]
      split
      · have : ¬ s ≤ p := by omega
        simp [this]
      · split
        · have h1 : p / 8 - s / 8 = (p - s) / 8 := by omega
          have h2 : p % 8 = (p - s) % 8 := by omega
          have h3 : s ≤ p := by omega
          simp [h1, h2, h3]
        · by_cases hr : p % 8 < s % 8
          · split
            · have h1 : p / 8 - s / 8 - 1 = (p - s) / 8 := by omega
              have h2 : 8 - s % 8 + p % 8 = (p - s) % 8 := by omega
              have h3 : s ≤ p := by omega
              simp [h1, h2, h3, hr]
            · have h3 : ¬ s ≤ p := by omega
              simp [h3, hr]
          · have h1 : p / 8 - s / 8 = (p - s) / 8 := by omega
            have h2 : p % 8 - s % 8 = (p - s) % 8 := by omega
            have h3 : s ≤ p := by omega
            have h4 : p % 8 < 8 := by omega
            have h5 : 8 ≤ 8 - s % 8 + p % 8 := by omega
            split
            · simp [h1, h2, h3, h4, hr, h5, -BitVec.getLsbD_eq_getElem]
            · simp [h1, h2, h3, h4, hr, -BitVec.getLsbD_eq_getElem]

/-- Every bit of a right shift comes from `s` above, 0 beyond the end. -/
theorem bitAt_shr {n p : Nat} {x : Buffer} (s : Nat) (hx : x.length = n) (hp : p < 8 * n) :
    bitAt (shr n x s) p = bitAt x (p + s) := by
  have out : ∀ q, 8 * n ≤ q → bitAt x q = false := by
    intro q hq
    have : n ≤ q / 8 := by omega
    simp [bitAt, byteAt, hx, this]
  unfold shr
  split
  · subst s; simp
  · split
    · rw [out (p + s) (by omega)]; simp
    · rw [bitAt_build _ hp]
      simp only [shrByte, bitAt]
      split
      · have := out (p + s) (by omega)
        simp only [bitAt] at this
        simp [this]
      · split
        · have h1 : p / 8 + s / 8 = (p + s) / 8 := by omega
          have h2 : p % 8 = (p + s) % 8 := by omega
          simp [h1, h2]
        · by_cases hr : p % 8 + s % 8 < 8
          · have h1 : p / 8 + s / 8 = (p + s) / 8 := by omega
            have h2 : s % 8 + p % 8 = (p + s) % 8 := by omega
            have h3 : p % 8 < 8 - s % 8 := by omega
            split <;> simp [h1, h2, h3]
          · have h1 : p / 8 + s / 8 + 1 = (p + s) / 8 := by omega
            have h2 : p % 8 - (8 - s % 8) = (p + s) % 8 := by omega
            have h3 : ¬ p % 8 < 8 - s % 8 := by omega
            have h4 : p % 8 < 8 := by omega
            have h5 : 8 ≤ s % 8 + p % 8 := by omega
            split
            · simp [h1, h2, h3, h4, h5, -BitVec.getLsbD_eq_getElem]
            · have := out (p + s) (by omega)
              simp only [bitAt] at this
              simp [this, h5]
end Sys2Proof.Machine
end

