-- ==== Sys2Proof/Laws/Encoding.lean ====
section
/-! SUPPORT. The control word and its fields: the word as a number, taking apart what was put together and back, a mask of a word
field by field, and the codes of the operands. -/

namespace Sys2Proof

/-- The fields of a word, as a number (spec/30_encoding.md rule R65). -/
theorem Fields.toWord_toNat (f : Fields) :
    f.toWord.toNat = f.opcode.toNat + f.rd.toNat * 2 ^ 8 + f.rs1.toNat * 2 ^ 12 + f.rs2.toNat * 2 ^ 16 +
      f.szc.toNat * 2 ^ 20 + f.ordc.toNat * 2 ^ 22 + f.imm8.toNat * 2 ^ 24 := by
  have h1 := f.opcode.isLt
  have h2 := f.rd.isLt
  have h3 := f.rs1.isLt
  have h4 := f.rs2.isLt
  have h5 := f.szc.isLt
  have h6 := f.ordc.isLt
  have or_eq_add : ∀ a b k : Nat, b < 2 ^ k → a * 2 ^ k ||| b = a * 2 ^ k + b := fun a b k hb => by
    rw [Nat.mul_comm]; exact (Nat.two_pow_add_eq_or_of_lt hb a).symm
  simp only [Fields.toWord, BitVec.toNat_append, Nat.shiftLeft_eq]
  rw [or_eq_add _ _ 2 (by omega), or_eq_add _ _ 2 (by omega), or_eq_add _ _ 4 (by omega), or_eq_add _ _ 4 (by omega),
    or_eq_add _ _ 4 (by omega), or_eq_add _ _ 8 (by omega)]
  omega

/-- Each field read back from the word it was put into. -/
theorem Fields.ofWord_toWord (f : Fields) : Fields.ofWord f.toWord = f := by
  have h := f.toWord_toNat
  have h1 := f.opcode.isLt
  have h2 := f.rd.isLt
  have h3 := f.rs1.isLt
  have h4 := f.rs2.isLt
  have h5 := f.szc.isLt
  have h6 := f.ordc.isLt
  have h7 := f.imm8.isLt
  cases f with
  | mk op rd rs1 rs2 szc ordc imm8 =>
    simp only [Fields.ofWord, Fields.mk.injEq] at *
    refine ⟨?_, ?_, ?_, ?_, ?_, ?_, ?_⟩ <;>
      (apply BitVec.eq_of_toNat_eq
       simp only [BitVec.extractLsb'_toNat, h, Nat.shiftRight_eq_div_pow]
       omega)

/-- A word is the word of its fields: no bit is outside every field. -/
theorem Fields.toWord_ofWord (w : CtlWord) : (Fields.ofWord w).toWord = w := by
  apply BitVec.eq_of_toNat_eq
  rw [Fields.toWord_toNat]
  have := w.isLt
  simp only [Fields.ofWord, BitVec.extractLsb'_toNat, Nat.shiftRight_eq_div_pow]
  omega

/-- The conjunction of two words is that of their fields. -/
theorem Fields.and_toWord (f g : Fields) :
    f.toWord &&& g.toWord =
      Fields.toWord ⟨f.opcode &&& g.opcode, f.rd &&& g.rd, f.rs1 &&& g.rs1, f.rs2 &&& g.rs2, f.szc &&& g.szc,
        f.ordc &&& g.ordc, f.imm8 &&& g.imm8⟩ := by
  refine BitVec.and_append.trans (congrArg (· ++ _) ?_)
  refine BitVec.and_append.trans (congrArg (· ++ _) ?_)
  refine BitVec.and_append.trans (congrArg (· ++ _) ?_)
  refine BitVec.and_append.trans (congrArg (· ++ _) ?_)
  refine BitVec.and_append.trans (congrArg (· ++ _) ?_)
  exact BitVec.and_append

@[simp] theorem regOfCode_code (r : Reg) : regOfCode r.code = r := rfl
@[simp] theorem code_regOfCode (v : BitVec 4) : (regOfCode v).code = v := rfl
@[simp] theorem Reg.code_toNat (r : Reg) : r.code.toNat = r.val := rfl

@[simp] theorem Width.ofCode_code (z : Width) : Width.ofCode z.code = z := by cases z <;> rfl

theorem Width.code_ofCode (v : BitVec 2) : (Width.ofCode v).code = v := by revert v; decide

@[simp] theorem OrderName.ofCode_code (o : OrderName) : OrderName.ofCode o.code = some o := by cases o <;> rfl

theorem OrderName.code_ofCode {v : BitVec 2} {o : OrderName} (h : OrderName.ofCode v = some o) : o.code = v := by
  revert v o; decide

@[simp] theorem OrderName.code_ne_reserved (o : OrderName) : o.code ≠ 3#2 := by cases o <;> decide

end Sys2Proof
end

