-- ==== Sys2Proof/Laws/Exec.lean ====
section
/-! SUPPORT. What `exec` answers for each command, in the shared operations. Cite these and never unfold `exec`. -/

namespace Sys2Proof.Machine

variable (s : State)

theorem exec_zero (rd : Reg) :
    exec (.zero rd) s =
      .next (s.writeBack rd (zeroBuffer s.cfg.n)) := rfl

theorem exec_fill (rd : Reg) (imm8 : Byte) :
    exec (.fill rd imm8) s =
      .next (s.writeBack rd (fillBuffer s.cfg.n imm8)) := rfl

theorem exec_lda (rd : Reg) :
    exec (.lda rd) s =
      .next (s.writeBack rd (copyLanes s.cfg.n s.cmd.din)) := rfl

theorem exec_ldp (rd : Reg) :
    exec (.ldp rd) s =
      .next (s.writeBack rd (copyPrefix s.cfg.n (amountOf s.cmd) s.cmd.din)) := rfl

theorem exec_ldi (rd : Reg) (sz : Width) :
    exec (.ldi rd sz) s =
      .next (s.writeBack rd (fromInt s.cfg.n sz.bytes s.cmd.opnd)) := rfl

theorem exec_mov (rd rs1 : Reg) :
    exec (.mov rd rs1) s =
      .next (s.writeBack rd (s.reg rs1)) := rfl

theorem exec_getb (rs1 : Reg) :
    exec (.getb rs1) s =
      .next (s.returnScalar ((byteAt (s.reg rs1) (clampIndex s.cfg.n (amountOf s.cmd))).setWidth 64)) := rfl

theorem exec_putb (rd : Reg) (imm8 : Byte) :
    exec (.putb rd imm8) s =
      .next (s.writeBack rd (setByte (s.reg rd) (clampIndex s.cfg.n (amountOf s.cmd)) imm8)) := rfl

theorem exec_getbu (rs1 : Reg) :
    exec (.getbu rs1) s =
      if amountOf s.cmd < s.cfg.n then .next (s.returnScalar ((byteAt (s.reg rs1) (amountOf s.cmd)).setWidth 64)) else .fault .uncheckedIndex := rfl

theorem exec_putbu (rd : Reg) (imm8 : Byte) :
    exec (.putbu rd imm8) s =
      if amountOf s.cmd < s.cfg.n then .next (s.writeBack rd (setByte (s.reg rd) (amountOf s.cmd) imm8)) else .fault .uncheckedIndex := rfl

theorem exec_rda (rs1 : Reg) :
    exec (.rda rs1) s =
      .next (s.returnBuffer (s.reg rs1)) := rfl

theorem exec_and (rd rs1 rs2 : Reg) :
    exec (.and rd rs1 rs2) s =
      .next (s.writeBack rd (andBuffers s.cfg.n (s.reg rs1) (s.reg rs2))) := rfl

theorem exec_or (rd rs1 rs2 : Reg) :
    exec (.or rd rs1 rs2) s =
      .next (s.writeBack rd (orBuffers s.cfg.n (s.reg rs1) (s.reg rs2))) := rfl

theorem exec_xor (rd rs1 rs2 : Reg) :
    exec (.xor rd rs1 rs2) s =
      .next (s.writeBack rd (xorBuffers s.cfg.n (s.reg rs1) (s.reg rs2))) := rfl

theorem exec_not (rd rs1 : Reg) :
    exec (.not rd rs1) s =
      .next (s.writeBack rd (notBuffer s.cfg.n (s.reg rs1))) := rfl

theorem exec_cmpeq (rs1 rs2 : Reg) :
    exec (.cmpeq rs1 rs2) s =
      .next (s.returnScalar (truth (equalBuffers s.cfg.n (s.reg rs1) (s.reg rs2)))) := rfl

theorem exec_cmplt (rs1 rs2 : Reg) :
    exec (.cmplt rs1 rs2) s =
      .next (s.returnScalar (truth (lexLess s.cfg.n (s.reg rs1) (s.reg rs2)))) := rfl

theorem exec_shl (rd rs1 : Reg) :
    exec (.shl rd rs1) s =
      .next (s.writeBack rd (shl s.cfg.n (s.reg rs1) (amountOf s.cmd))) := rfl

theorem exec_shr (rd rs1 : Reg) :
    exec (.shr rd rs1) s =
      .next (s.writeBack rd (shr s.cfg.n (s.reg rs1) (amountOf s.cmd))) := rfl

theorem exec_rol (rd rs1 : Reg) :
    exec (.rol rd rs1) s =
      .next (s.writeBack rd (rotl s.cfg.n (s.reg rs1) (amountOf s.cmd))) := rfl

theorem exec_ror (rd rs1 : Reg) :
    exec (.ror rd rs1) s =
      .next (s.writeBack rd (rotr s.cfg.n (s.reg rs1) (amountOf s.cmd))) := rfl

theorem exec_setbit (rd : Reg) :
    exec (.setbit rd) s =
      .next (s.writeBack rd (setBit s.cfg.n (s.reg rd) (amountOf s.cmd))) := rfl

theorem exec_clrbit (rd : Reg) :
    exec (.clrbit rd) s =
      .next (s.writeBack rd (clearBit s.cfg.n (s.reg rd) (amountOf s.cmd))) := rfl

theorem exec_tglbit (rd : Reg) :
    exec (.tglbit rd) s =
      .next (s.writeBack rd (toggleBit s.cfg.n (s.reg rd) (amountOf s.cmd))) := rfl

theorem exec_tstbit (rs1 : Reg) :
    exec (.tstbit rs1) s =
      .next (s.returnScalar (truth (testBit s.cfg.n (s.reg rs1) (amountOf s.cmd)))) := rfl

theorem exec_popcnt (rs1 : Reg) :
    exec (.popcnt rs1) s =
      .next (s.returnScalar (BitVec.ofNat 64 (popCount s.cfg.n (s.reg rs1)))) := rfl

theorem exec_toint (rs1 : Reg) (sz : Width) :
    exec (.toint rs1 sz) s =
      .next (s.returnScalar (toInt s.cfg.n sz.bytes (s.reg rs1))) := rfl

theorem exec_rev (rd rs1 : Reg) :
    exec (.rev rd rs1) s =
      .next (s.writeBack rd (rev s.cfg.n (s.reg rs1))) := rfl

theorem exec_tole (rd rs1 : Reg) :
    exec (.tole rd rs1) s =
      .next (s.writeBack rd (conv s.cfg (s.reg rs1) .little)) := rfl

theorem exec_tobe (rd rs1 : Reg) :
    exec (.tobe rd rs1) s =
      .next (s.writeBack rd (conv s.cfg (s.reg rs1) .big)) := rfl

theorem exec_tonet (rd rs1 : Reg) :
    exec (.tonet rd rs1) s =
      .next (s.writeBack rd (conv s.cfg (s.reg rs1) .big)) := rfl

theorem exec_fromle (rd rs1 : Reg) :
    exec (.fromle rd rs1) s =
      .next (s.writeBack rd (conv s.cfg (s.reg rs1) .little)) := rfl

theorem exec_frombe (rd rs1 : Reg) :
    exec (.frombe rd rs1) s =
      .next (s.writeBack rd (conv s.cfg (s.reg rs1) .big)) := rfl

theorem exec_fromnet (rd rs1 : Reg) :
    exec (.fromnet rd rs1) s =
      .next (s.writeBack rd (conv s.cfg (s.reg rs1) .big)) := rfl

theorem exec_toend (rd rs1 : Reg) (ord : OrderName) :
    exec (.toend rd rs1 ord) s =
      .next (s.writeBack rd (conv s.cfg (s.reg rs1) ord)) := rfl

theorem exec_fromend (rd rs1 : Reg) (ord : OrderName) :
    exec (.fromend rd rs1 ord) s =
      .next (s.writeBack rd (conv s.cfg (s.reg rs1) ord)) := rfl

theorem exec_normle (rd : Reg) :
    exec (.normle rd) s =
      .next (s.normalise rd .little) := rfl

theorem exec_normbe (rd : Reg) :
    exec (.normbe rd) s =
      .next (s.normalise rd .big) := rfl

theorem exec_tointe (rs1 : Reg) (sz : Width) (ord : OrderName) :
    exec (.tointe rs1 sz ord) s =
      .next (s.returnScalar (toInt s.cfg.n sz.bytes (conv s.cfg (s.reg rs1) ord))) := rfl

theorem exec_ldie (rd : Reg) (sz : Width) (ord : OrderName) :
    exec (.ldie rd sz ord) s =
      .next (s.writeBack rd (conv s.cfg (fromInt s.cfg.n sz.bytes s.cmd.opnd) ord)) := rfl

end Sys2Proof.Machine
end

