-- ==== Sys2Proof/Laws/PerInstr.lean ====
section
/-! SUPPORT. Statements made for every command, one lemma a constructor. `EncodingMatchesTable`: the encoder's word of a command is
selected by the row of the opcode map with the command's mnemonic (spec/30_encoding.md rules R68, R77). -/

namespace Sys2Proof.Laws

/-- A row selects the word of the fields `f` when masking them field by field gives its pattern. -/
theorem selects_of_fields {row : OpcodeRow} {f : Fields} (m p : Fields) (hm : row.mask = m.toWord)
    (hp : row.pattern = p.toWord)
    (h : (⟨f.opcode &&& m.opcode, f.rd &&& m.rd, f.rs1 &&& m.rs1, f.rs2 &&& m.rs2, f.szc &&& m.szc, f.ordc &&& m.ordc,
      f.imm8 &&& m.imm8⟩ : Fields) = p)
    (ho : row.hasOrder = false ∨ f.ordc ≠ 3#2) : row.selects f.toWord = true := by
  have e : f.toWord.extractLsb' 22 2 = f.ordc := congrArg Fields.ordc f.ofWord_toWord
  rw [OpcodeRow.selects, hm, hp, Fields.and_toWord, h, e]
  rcases ho with ho | ho <;> simp [ho]

namespace EncodingMatchesTable

/-- The statement about one command. -/
def Statement (i : Instr) : Prop :=
  ∃ row ∈ opcodeTable, row.mnemonic = i.mnemonic ∧ row.selects (encode i) = true

theorem zero (rd : Reg) : Statement (.zero rd) :=
  ⟨⟨"ZERO", 0x01#8, 0x00000001#32, 0xFFFFF0FF#32, false⟩, by decide, rfl,
    selects_of_fields ⟨255, 0, 15, 15, 3, 3, 255⟩ ⟨0x01, 0, 0, 0, 0, 0, 0⟩ (by decide) (by decide)
      (by simp [fieldsOf, Fields.blank]) (by simp [fieldsOf])⟩

theorem fill (rd : Reg) (imm8 : Byte) : Statement (.fill rd imm8) :=
  ⟨⟨"FILL", 0x02#8, 0x00000002#32, 0x00FFF0FF#32, false⟩, by decide, rfl,
    selects_of_fields ⟨255, 0, 15, 15, 3, 3, 0⟩ ⟨0x02, 0, 0, 0, 0, 0, 0⟩ (by decide) (by decide)
      (by simp [fieldsOf, Fields.blank]) (by simp [fieldsOf])⟩

theorem lda (rd : Reg) : Statement (.lda rd) :=
  ⟨⟨"LDA", 0x03#8, 0x00000003#32, 0xFFFFF0FF#32, false⟩, by decide, rfl,
    selects_of_fields ⟨255, 0, 15, 15, 3, 3, 255⟩ ⟨0x03, 0, 0, 0, 0, 0, 0⟩ (by decide) (by decide)
      (by simp [fieldsOf, Fields.blank]) (by simp [fieldsOf])⟩

theorem ldp (rd : Reg) : Statement (.ldp rd) :=
  ⟨⟨"LDP", 0x04#8, 0x00000004#32, 0xFFFFF0FF#32, false⟩, by decide, rfl,
    selects_of_fields ⟨255, 0, 15, 15, 3, 3, 255⟩ ⟨0x04, 0, 0, 0, 0, 0, 0⟩ (by decide) (by decide)
      (by simp [fieldsOf, Fields.blank]) (by simp [fieldsOf])⟩

theorem ldi (rd : Reg) (sz : Width) : Statement (.ldi rd sz) :=
  ⟨⟨"LDI", 0x05#8, 0x00000005#32, 0xFFCFF0FF#32, false⟩, by decide, rfl,
    selects_of_fields ⟨255, 0, 15, 15, 0, 3, 255⟩ ⟨0x05, 0, 0, 0, 0, 0, 0⟩ (by decide) (by decide)
      (by simp [fieldsOf, Fields.blank]) (by simp [fieldsOf])⟩

theorem mov (rd : Reg) (rs1 : Reg) : Statement (.mov rd rs1) :=
  ⟨⟨"MOV", 0x06#8, 0x00000006#32, 0xFFFF00FF#32, false⟩, by decide, rfl,
    selects_of_fields ⟨255, 0, 0, 15, 3, 3, 255⟩ ⟨0x06, 0, 0, 0, 0, 0, 0⟩ (by decide) (by decide)
      (by simp [fieldsOf, Fields.blank]) (by simp [fieldsOf])⟩

theorem getb (rs1 : Reg) : Statement (.getb rs1) :=
  ⟨⟨"GETB", 0x10#8, 0x00000010#32, 0xFFFF0FFF#32, false⟩, by decide, rfl,
    selects_of_fields ⟨255, 15, 0, 15, 3, 3, 255⟩ ⟨0x10, 0, 0, 0, 0, 0, 0⟩ (by decide) (by decide)
      (by simp [fieldsOf, Fields.blank]) (by simp [fieldsOf])⟩

theorem putb (rd : Reg) (imm8 : Byte) : Statement (.putb rd imm8) :=
  ⟨⟨"PUTB", 0x11#8, 0x00000011#32, 0x00FFF0FF#32, false⟩, by decide, rfl,
    selects_of_fields ⟨255, 0, 15, 15, 3, 3, 0⟩ ⟨0x11, 0, 0, 0, 0, 0, 0⟩ (by decide) (by decide)
      (by simp [fieldsOf, Fields.blank]) (by simp [fieldsOf])⟩

theorem getbu (rs1 : Reg) : Statement (.getbu rs1) :=
  ⟨⟨"GETBU", 0x12#8, 0x00000012#32, 0xFFFF0FFF#32, false⟩, by decide, rfl,
    selects_of_fields ⟨255, 15, 0, 15, 3, 3, 255⟩ ⟨0x12, 0, 0, 0, 0, 0, 0⟩ (by decide) (by decide)
      (by simp [fieldsOf, Fields.blank]) (by simp [fieldsOf])⟩

theorem putbu (rd : Reg) (imm8 : Byte) : Statement (.putbu rd imm8) :=
  ⟨⟨"PUTBU", 0x13#8, 0x00000013#32, 0x00FFF0FF#32, false⟩, by decide, rfl,
    selects_of_fields ⟨255, 0, 15, 15, 3, 3, 0⟩ ⟨0x13, 0, 0, 0, 0, 0, 0⟩ (by decide) (by decide)
      (by simp [fieldsOf, Fields.blank]) (by simp [fieldsOf])⟩

theorem rda (rs1 : Reg) : Statement (.rda rs1) :=
  ⟨⟨"RDA", 0x14#8, 0x00000014#32, 0xFFFF0FFF#32, false⟩, by decide, rfl,
    selects_of_fields ⟨255, 15, 0, 15, 3, 3, 255⟩ ⟨0x14, 0, 0, 0, 0, 0, 0⟩ (by decide) (by decide)
      (by simp [fieldsOf, Fields.blank]) (by simp [fieldsOf])⟩

theorem and (rd : Reg) (rs1 : Reg) (rs2 : Reg) : Statement (.and rd rs1 rs2) :=
  ⟨⟨"AND", 0x20#8, 0x00000020#32, 0xFFF000FF#32, false⟩, by decide, rfl,
    selects_of_fields ⟨255, 0, 0, 0, 3, 3, 255⟩ ⟨0x20, 0, 0, 0, 0, 0, 0⟩ (by decide) (by decide)
      (by simp [fieldsOf, Fields.blank]) (by simp [fieldsOf])⟩

theorem or (rd : Reg) (rs1 : Reg) (rs2 : Reg) : Statement (.or rd rs1 rs2) :=
  ⟨⟨"OR", 0x21#8, 0x00000021#32, 0xFFF000FF#32, false⟩, by decide, rfl,
    selects_of_fields ⟨255, 0, 0, 0, 3, 3, 255⟩ ⟨0x21, 0, 0, 0, 0, 0, 0⟩ (by decide) (by decide)
      (by simp [fieldsOf, Fields.blank]) (by simp [fieldsOf])⟩

theorem xor (rd : Reg) (rs1 : Reg) (rs2 : Reg) : Statement (.xor rd rs1 rs2) :=
  ⟨⟨"XOR", 0x22#8, 0x00000022#32, 0xFFF000FF#32, false⟩, by decide, rfl,
    selects_of_fields ⟨255, 0, 0, 0, 3, 3, 255⟩ ⟨0x22, 0, 0, 0, 0, 0, 0⟩ (by decide) (by decide)
      (by simp [fieldsOf, Fields.blank]) (by simp [fieldsOf])⟩

theorem not (rd : Reg) (rs1 : Reg) : Statement (.not rd rs1) :=
  ⟨⟨"NOT", 0x23#8, 0x00000023#32, 0xFFFF00FF#32, false⟩, by decide, rfl,
    selects_of_fields ⟨255, 0, 0, 15, 3, 3, 255⟩ ⟨0x23, 0, 0, 0, 0, 0, 0⟩ (by decide) (by decide)
      (by simp [fieldsOf, Fields.blank]) (by simp [fieldsOf])⟩

theorem cmpeq (rs1 : Reg) (rs2 : Reg) : Statement (.cmpeq rs1 rs2) :=
  ⟨⟨"CMPEQ", 0x24#8, 0x00000024#32, 0xFFF00FFF#32, false⟩, by decide, rfl,
    selects_of_fields ⟨255, 15, 0, 0, 3, 3, 255⟩ ⟨0x24, 0, 0, 0, 0, 0, 0⟩ (by decide) (by decide)
      (by simp [fieldsOf, Fields.blank]) (by simp [fieldsOf])⟩

theorem cmplt (rs1 : Reg) (rs2 : Reg) : Statement (.cmplt rs1 rs2) :=
  ⟨⟨"CMPLT", 0x25#8, 0x00000025#32, 0xFFF00FFF#32, false⟩, by decide, rfl,
    selects_of_fields ⟨255, 15, 0, 0, 3, 3, 255⟩ ⟨0x25, 0, 0, 0, 0, 0, 0⟩ (by decide) (by decide)
      (by simp [fieldsOf, Fields.blank]) (by simp [fieldsOf])⟩

theorem shl (rd : Reg) (rs1 : Reg) : Statement (.shl rd rs1) :=
  ⟨⟨"SHL", 0x30#8, 0x00000030#32, 0xFFFF00FF#32, false⟩, by decide, rfl,
    selects_of_fields ⟨255, 0, 0, 15, 3, 3, 255⟩ ⟨0x30, 0, 0, 0, 0, 0, 0⟩ (by decide) (by decide)
      (by simp [fieldsOf, Fields.blank]) (by simp [fieldsOf])⟩

theorem shr (rd : Reg) (rs1 : Reg) : Statement (.shr rd rs1) :=
  ⟨⟨"SHR", 0x31#8, 0x00000031#32, 0xFFFF00FF#32, false⟩, by decide, rfl,
    selects_of_fields ⟨255, 0, 0, 15, 3, 3, 255⟩ ⟨0x31, 0, 0, 0, 0, 0, 0⟩ (by decide) (by decide)
      (by simp [fieldsOf, Fields.blank]) (by simp [fieldsOf])⟩

theorem rol (rd : Reg) (rs1 : Reg) : Statement (.rol rd rs1) :=
  ⟨⟨"ROL", 0x32#8, 0x00000032#32, 0xFFFF00FF#32, false⟩, by decide, rfl,
    selects_of_fields ⟨255, 0, 0, 15, 3, 3, 255⟩ ⟨0x32, 0, 0, 0, 0, 0, 0⟩ (by decide) (by decide)
      (by simp [fieldsOf, Fields.blank]) (by simp [fieldsOf])⟩

theorem ror (rd : Reg) (rs1 : Reg) : Statement (.ror rd rs1) :=
  ⟨⟨"ROR", 0x33#8, 0x00000033#32, 0xFFFF00FF#32, false⟩, by decide, rfl,
    selects_of_fields ⟨255, 0, 0, 15, 3, 3, 255⟩ ⟨0x33, 0, 0, 0, 0, 0, 0⟩ (by decide) (by decide)
      (by simp [fieldsOf, Fields.blank]) (by simp [fieldsOf])⟩

theorem setbit (rd : Reg) : Statement (.setbit rd) :=
  ⟨⟨"SETBIT", 0x40#8, 0x00000040#32, 0xFFFFF0FF#32, false⟩, by decide, rfl,
    selects_of_fields ⟨255, 0, 15, 15, 3, 3, 255⟩ ⟨0x40, 0, 0, 0, 0, 0, 0⟩ (by decide) (by decide)
      (by simp [fieldsOf, Fields.blank]) (by simp [fieldsOf])⟩

theorem clrbit (rd : Reg) : Statement (.clrbit rd) :=
  ⟨⟨"CLRBIT", 0x41#8, 0x00000041#32, 0xFFFFF0FF#32, false⟩, by decide, rfl,
    selects_of_fields ⟨255, 0, 15, 15, 3, 3, 255⟩ ⟨0x41, 0, 0, 0, 0, 0, 0⟩ (by decide) (by decide)
      (by simp [fieldsOf, Fields.blank]) (by simp [fieldsOf])⟩

theorem tglbit (rd : Reg) : Statement (.tglbit rd) :=
  ⟨⟨"TGLBIT", 0x42#8, 0x00000042#32, 0xFFFFF0FF#32, false⟩, by decide, rfl,
    selects_of_fields ⟨255, 0, 15, 15, 3, 3, 255⟩ ⟨0x42, 0, 0, 0, 0, 0, 0⟩ (by decide) (by decide)
      (by simp [fieldsOf, Fields.blank]) (by simp [fieldsOf])⟩

theorem tstbit (rs1 : Reg) : Statement (.tstbit rs1) :=
  ⟨⟨"TSTBIT", 0x43#8, 0x00000043#32, 0xFFFF0FFF#32, false⟩, by decide, rfl,
    selects_of_fields ⟨255, 15, 0, 15, 3, 3, 255⟩ ⟨0x43, 0, 0, 0, 0, 0, 0⟩ (by decide) (by decide)
      (by simp [fieldsOf, Fields.blank]) (by simp [fieldsOf])⟩

theorem popcnt (rs1 : Reg) : Statement (.popcnt rs1) :=
  ⟨⟨"POPCNT", 0x44#8, 0x00000044#32, 0xFFFF0FFF#32, false⟩, by decide, rfl,
    selects_of_fields ⟨255, 15, 0, 15, 3, 3, 255⟩ ⟨0x44, 0, 0, 0, 0, 0, 0⟩ (by decide) (by decide)
      (by simp [fieldsOf, Fields.blank]) (by simp [fieldsOf])⟩

theorem toint (rs1 : Reg) (sz : Width) : Statement (.toint rs1 sz) :=
  ⟨⟨"TOINT", 0x50#8, 0x00000050#32, 0xFFCF0FFF#32, false⟩, by decide, rfl,
    selects_of_fields ⟨255, 15, 0, 15, 0, 3, 255⟩ ⟨0x50, 0, 0, 0, 0, 0, 0⟩ (by decide) (by decide)
      (by simp [fieldsOf, Fields.blank]) (by simp [fieldsOf])⟩

theorem rev (rd : Reg) (rs1 : Reg) : Statement (.rev rd rs1) :=
  ⟨⟨"REV", 0x60#8, 0x00000060#32, 0xFFFF00FF#32, false⟩, by decide, rfl,
    selects_of_fields ⟨255, 0, 0, 15, 3, 3, 255⟩ ⟨0x60, 0, 0, 0, 0, 0, 0⟩ (by decide) (by decide)
      (by simp [fieldsOf, Fields.blank]) (by simp [fieldsOf])⟩

theorem tole (rd : Reg) (rs1 : Reg) : Statement (.tole rd rs1) :=
  ⟨⟨"TOLE", 0x61#8, 0x00000061#32, 0xFFFF00FF#32, false⟩, by decide, rfl,
    selects_of_fields ⟨255, 0, 0, 15, 3, 3, 255⟩ ⟨0x61, 0, 0, 0, 0, 0, 0⟩ (by decide) (by decide)
      (by simp [fieldsOf, Fields.blank]) (by simp [fieldsOf])⟩

theorem tobe (rd : Reg) (rs1 : Reg) : Statement (.tobe rd rs1) :=
  ⟨⟨"TOBE", 0x62#8, 0x00000062#32, 0xFFFF00FF#32, false⟩, by decide, rfl,
    selects_of_fields ⟨255, 0, 0, 15, 3, 3, 255⟩ ⟨0x62, 0, 0, 0, 0, 0, 0⟩ (by decide) (by decide)
      (by simp [fieldsOf, Fields.blank]) (by simp [fieldsOf])⟩

theorem tonet (rd : Reg) (rs1 : Reg) : Statement (.tonet rd rs1) :=
  ⟨⟨"TONET", 0x63#8, 0x00000063#32, 0xFFFF00FF#32, false⟩, by decide, rfl,
    selects_of_fields ⟨255, 0, 0, 15, 3, 3, 255⟩ ⟨0x63, 0, 0, 0, 0, 0, 0⟩ (by decide) (by decide)
      (by simp [fieldsOf, Fields.blank]) (by simp [fieldsOf])⟩

theorem fromle (rd : Reg) (rs1 : Reg) : Statement (.fromle rd rs1) :=
  ⟨⟨"FROMLE", 0x64#8, 0x00000064#32, 0xFFFF00FF#32, false⟩, by decide, rfl,
    selects_of_fields ⟨255, 0, 0, 15, 3, 3, 255⟩ ⟨0x64, 0, 0, 0, 0, 0, 0⟩ (by decide) (by decide)
      (by simp [fieldsOf, Fields.blank]) (by simp [fieldsOf])⟩

theorem frombe (rd : Reg) (rs1 : Reg) : Statement (.frombe rd rs1) :=
  ⟨⟨"FROMBE", 0x65#8, 0x00000065#32, 0xFFFF00FF#32, false⟩, by decide, rfl,
    selects_of_fields ⟨255, 0, 0, 15, 3, 3, 255⟩ ⟨0x65, 0, 0, 0, 0, 0, 0⟩ (by decide) (by decide)
      (by simp [fieldsOf, Fields.blank]) (by simp [fieldsOf])⟩

theorem fromnet (rd : Reg) (rs1 : Reg) : Statement (.fromnet rd rs1) :=
  ⟨⟨"FROMNET", 0x66#8, 0x00000066#32, 0xFFFF00FF#32, false⟩, by decide, rfl,
    selects_of_fields ⟨255, 0, 0, 15, 3, 3, 255⟩ ⟨0x66, 0, 0, 0, 0, 0, 0⟩ (by decide) (by decide)
      (by simp [fieldsOf, Fields.blank]) (by simp [fieldsOf])⟩

theorem toend (rd : Reg) (rs1 : Reg) (ord : OrderName) : Statement (.toend rd rs1 ord) :=
  ⟨⟨"TOEND", 0x67#8, 0x00000067#32, 0xFF3F00FF#32, true⟩, by decide, rfl,
    selects_of_fields ⟨255, 0, 0, 15, 3, 0, 255⟩ ⟨0x67, 0, 0, 0, 0, 0, 0⟩ (by decide) (by decide)
      (by simp [fieldsOf, Fields.blank]) (by simp [fieldsOf])⟩

theorem fromend (rd : Reg) (rs1 : Reg) (ord : OrderName) : Statement (.fromend rd rs1 ord) :=
  ⟨⟨"FROMEND", 0x68#8, 0x00000068#32, 0xFF3F00FF#32, true⟩, by decide, rfl,
    selects_of_fields ⟨255, 0, 0, 15, 3, 0, 255⟩ ⟨0x68, 0, 0, 0, 0, 0, 0⟩ (by decide) (by decide)
      (by simp [fieldsOf, Fields.blank]) (by simp [fieldsOf])⟩

theorem normle (rd : Reg) : Statement (.normle rd) :=
  ⟨⟨"NORMLE", 0x69#8, 0x00000069#32, 0xFFFFF0FF#32, false⟩, by decide, rfl,
    selects_of_fields ⟨255, 0, 15, 15, 3, 3, 255⟩ ⟨0x69, 0, 0, 0, 0, 0, 0⟩ (by decide) (by decide)
      (by simp [fieldsOf, Fields.blank]) (by simp [fieldsOf])⟩

theorem normbe (rd : Reg) : Statement (.normbe rd) :=
  ⟨⟨"NORMBE", 0x6A#8, 0x0000006A#32, 0xFFFFF0FF#32, false⟩, by decide, rfl,
    selects_of_fields ⟨255, 0, 15, 15, 3, 3, 255⟩ ⟨0x6A, 0, 0, 0, 0, 0, 0⟩ (by decide) (by decide)
      (by simp [fieldsOf, Fields.blank]) (by simp [fieldsOf])⟩

theorem tointe (rs1 : Reg) (sz : Width) (ord : OrderName) : Statement (.tointe rs1 sz ord) :=
  ⟨⟨"TOINTE", 0x6B#8, 0x0000006B#32, 0xFF0F0FFF#32, true⟩, by decide, rfl,
    selects_of_fields ⟨255, 15, 0, 15, 0, 0, 255⟩ ⟨0x6B, 0, 0, 0, 0, 0, 0⟩ (by decide) (by decide)
      (by simp [fieldsOf, Fields.blank]) (by simp [fieldsOf])⟩

theorem ldie (rd : Reg) (sz : Width) (ord : OrderName) : Statement (.ldie rd sz ord) :=
  ⟨⟨"LDIE", 0x6C#8, 0x0000006C#32, 0xFF0FF0FF#32, true⟩, by decide, rfl,
    selects_of_fields ⟨255, 0, 15, 15, 0, 0, 255⟩ ⟨0x6C, 0, 0, 0, 0, 0, 0⟩ (by decide) (by decide)
      (by simp [fieldsOf, Fields.blank]) (by simp [fieldsOf])⟩

end EncodingMatchesTable

end Sys2Proof.Laws
end

