-- ==== Sys2Proof/Laws/Step.lean ====
section
/-! SUPPORT. What one step can do, said once: the equation of each case, and the inversion of a step that answers a next state.
-/

namespace Sys2Proof.Machine

variable {s t : State} {c : Command} {rest : List HostEvent}

theorem step_idle (h : s.host = []) : step s = .next s := by simp [step, nextStep, h, State.idle]

theorem step_reset (h : s.host = .reset :: rest) : step s = .next { s.applyReset with host := rest } := by
  simp [step, nextStep, h, handleEvent]

theorem step_command (h : s.host = .command c :: rest) : step s = runSampled (s.accept c rest) := by
  simp [step, nextStep, h, handleEvent]

theorem runSampled_faulted (hf : s.flt = true) : runSampled s = .next s.reject := by simp [runSampled, hf]

theorem runSampled_illegal {e : Illegal} (hf : s.flt = false) (hd : decode s.cmd.ctl = .error e) :
    runSampled s = .next (s.raiseIllegal s.cmd.ctl) := by simp [runSampled, hf, hd]

theorem runSampled_legal {i : Instr} (hf : s.flt = false) (hd : decode s.cmd.ctl = .ok i) :
    runSampled s = exec i s := by simp [runSampled, hf, hd]

/-- A sampled command that answers a next state was rejected, raised the exception, or was executed. -/
theorem runSampled_cases (h : runSampled s = .next t) :
    (s.flt = true ∧ t = s.reject) ∨
    (s.flt = false ∧ (∃ e, decode s.cmd.ctl = .error e) ∧ t = s.raiseIllegal s.cmd.ctl) ∨
    (s.flt = false ∧ ∃ i, decode s.cmd.ctl = .ok i ∧ exec i s = .next t) := by
  cases hf : s.flt with
  | true =>
    rw [runSampled_faulted hf] at h
    exact .inl ⟨rfl, (Host.Outcome.next.inj h).symm⟩
  | false =>
    cases hd : decode s.cmd.ctl with
    | error e =>
      rw [runSampled_illegal hf hd] at h
      exact .inr (.inl ⟨rfl, ⟨e, rfl⟩, (Host.Outcome.next.inj h).symm⟩)
    | ok i =>
      rw [runSampled_legal hf hd] at h
      exact .inr (.inr ⟨rfl, i, rfl, h⟩)

/-- A step that answers a next state was idle, a reset, or a sampled command. -/
theorem step_cases (h : step s = .next t) :
    (s.host = [] ∧ t = s) ∨
    (∃ rest, s.host = .reset :: rest ∧ t = { s.applyReset with host := rest }) ∨
    (∃ c rest, s.host = .command c :: rest ∧ runSampled (s.accept c rest) = .next t) := by
  cases hh : s.host with
  | nil => rw [step_idle hh] at h; exact .inl ⟨rfl, (Host.Outcome.next.inj h).symm⟩
  | cons e rest =>
    cases e with
    | reset => rw [step_reset hh] at h; exact .inr (.inl ⟨rest, rfl, (Host.Outcome.next.inj h).symm⟩)
    | command c => rw [step_command hh] at h; exact .inr (.inr ⟨c, rest, rfl, h⟩)

end Sys2Proof.Machine
end

