-- ==== Sys2Proof/Machine/Assembler.lean ====
section
/-! DEFINITION. The assembler line of a command and of a pseudo-instruction, as text (spec/30_encoding.md rules R75, R76). The
command an assembler line stands for is `assemble` of Decode.lean (rule R77). Scalar operands and bytes are written in decimal
outside brackets, bytes in a bracketed list as two hexadecimal digits, as rule R75's example has them. -/

namespace Sys2Proof

/-- `b0` .. `b15` (rule R75). -/
def Reg.text (r : Reg) : String := "b" ++ toString r.val

/-- The suffix `.sz` (rules R66, R75). -/
def Width.suffix : Width → String
  | .w1 => ".1"
  | .w2 => ".2"
  | .w4 => ".4"
  | .w8 => ".8"

/-- The suffix `.ord` (rules R67, R75). -/
def OrderName.suffix : OrderName → String
  | .little => ".little"
  | .big => ".big"
  | .native => ".native"

/-- One hexadecimal digit. -/
def hexDigit (v : Nat) : String := (["0", "1", "2", "3", "4", "5", "6", "7", "8", "9", "A", "B", "C", "D", "E", "F"]).getD v ""

/-- One byte of a data list. -/
def Byte.text (v : Byte) : String := hexDigit (v.toNat / 16) ++ hexDigit (v.toNat % 16)

/-- A data input: a bracketed byte list in index order, index 0 first (rule R75). -/
def lanesText (x : Buffer) : String := "[" ++ String.intercalate " " (x.map Byte.text) ++ "]"

/-- What stands between the mnemonic and the operands: `.sz`, then `.ord` (rule R75). -/
def Instr.suffix : Instr → String
  | .ldi _ sz | .toint _ sz => sz.suffix
  | .toend _ _ o | .fromend _ _ o => o.suffix
  | .tointe _ sz o | .ldie _ sz o => sz.suffix ++ o.suffix
  | .zero _ | .fill _ _ | .lda _ | .ldp _ | .mov _ _ => ""
  | .getb _ | .putb _ _ | .getbu _ | .putbu _ _ | .rda _ => ""
  | .and _ _ _ | .or _ _ _ | .xor _ _ _ | .not _ _ | .cmpeq _ _ | .cmplt _ _ => ""
  | .shl _ _ | .shr _ _ | .rol _ _ | .ror _ _ => ""
  | .setbit _ | .clrbit _ | .tglbit _ | .tstbit _ | .popcnt _ => ""
  | .rev _ _ | .tole _ _ | .tobe _ _ | .tonet _ _ | .fromle _ _ | .frombe _ _ | .fromnet _ _ => ""
  | .normle _ | .normbe _ => ""

/-- The operands, in order: destination, sources, scalar operand, byte immediate, data (rule R75). -/
def Instr.operandTexts (i : Instr) (opnd : Scalar) (lanes : Buffer) : List String :=
  match i with
  | .zero rd | .normle rd | .normbe rd => [rd.text]
  | .fill rd imm8 => [rd.text, toString imm8.toNat]
  | .lda rd => [rd.text, lanesText lanes]
  | .ldp rd => [rd.text, toString opnd.toNat, lanesText lanes]
  | .ldi rd _ | .ldie rd _ _ => [rd.text, toString opnd.toNat]
  | .mov rd rs1 | .not rd rs1 | .rev rd rs1 => [rd.text, rs1.text]
  | .tole rd rs1 | .tobe rd rs1 | .tonet rd rs1 | .fromle rd rs1 | .frombe rd rs1 | .fromnet rd rs1 => [rd.text, rs1.text]
  | .toend rd rs1 _ | .fromend rd rs1 _ => [rd.text, rs1.text]
  | .shl rd rs1 | .shr rd rs1 | .rol rd rs1 | .ror rd rs1 => [rd.text, rs1.text, toString opnd.toNat]
  | .and rd rs1 rs2 | .or rd rs1 rs2 | .xor rd rs1 rs2 => [rd.text, rs1.text, rs2.text]
  | .cmpeq rs1 rs2 | .cmplt rs1 rs2 => [rs1.text, rs2.text]
  | .getb rs1 | .getbu rs1 | .tstbit rs1 => [rs1.text, toString opnd.toNat]
  | .putb rd imm8 | .putbu rd imm8 => [rd.text, toString opnd.toNat, toString imm8.toNat]
  | .setbit rd | .clrbit rd | .tglbit rd => [rd.text, toString opnd.toNat]
  | .popcnt rs1 | .rda rs1 | .toint rs1 _ | .tointe rs1 _ _ => [rs1.text]

/-- The assembler line of a command (rule R75). -/
def Instr.text (i : Instr) (opnd : Scalar) (lanes : Buffer) : String :=
  i.mnemonic ++ i.suffix ++ " " ++ String.intercalate ", " (i.operandTexts opnd lanes)

/-- The assembler line of a pseudo-instruction (rule R76). -/
def Pseudo.text (p : Pseudo) (opnd : Scalar) : String :=
  match p with
  | .shleq bd => "SHLEQ " ++ bd.text ++ ", " ++ toString opnd.toNat
  | .shreq bd => "SHREQ " ++ bd.text ++ ", " ++ toString opnd.toNat
  | .roleq bd => "ROLEQ " ++ bd.text ++ ", " ++ toString opnd.toNat
  | .roreq bd => "ROREQ " ++ bd.text ++ ", " ++ toString opnd.toNat
  | .andeq bd bs => "ANDEQ " ++ bd.text ++ ", " ++ bs.text
  | .oreq bd bs => "OREQ " ++ bd.text ++ ", " ++ bs.text
  | .xoreq bd bs => "XOREQ " ++ bd.text ++ ", " ++ bs.text
  | .noteq bd => "NOTEQ " ++ bd.text

end Sys2Proof
end

