-- ==== Sys2Proof/Tests/Slice0.lean ====
section
/-! SUPPORT. The model's own tests, each proved by evaluation. Expected results are those of the vectors of
spec/95_test_vectors.md and spec/96_test_vectors_shift_endian.md named in the comments; the witnesses at the end show, for
every obligation with hypotheses, a concrete case that meets them. -/

namespace Sys2Proof.Tests

open Sys2Proof.Machine

/-! ## Helpers -/

/-- An engine after reset with `N = top + 1`, its registers then loaded as listed. -/
def engine (top : Fin 4294967295) (o : Endian) (regs : List (Reg × Buffer)) : State :=
  regs.foldl (fun s p => s.setReg p.1 p.2) (State.resetFor ⟨top, o⟩)

/-- The engine with one command presented. -/
def presenting (s : State) (ctl : CtlWord) (opnd : Scalar) (din : Buffer) : State :=
  { s with host := [.command { ctl := ctl, opnd := opnd, din := din }] }

/-- The next state of a result, or `s` where there is none. -/
def after (r : Result) (s : State) : State :=
  match r with
  | .next t => t
  | _ => s

/-- The command wrote `rd`, kept the other registers, and answered OK without a result. -/
def wrote (s : State) (ctl : CtlWord) (opnd : Scalar) (din : Buffer) (rd : Reg) (y : Buffer) : Bool :=
  match step (presenting s ctl opnd din) with
  | .next t => t.b == s.b.set rd.val y && t.sent == [plainResponse s.cfg] && t.flt == false
  | _ => false

/-- The command changed no register and answered OK with the result `v`. -/
def answered (s : State) (ctl : CtlWord) (opnd : Scalar) (v : Scalar) : Bool :=
  match step (presenting s ctl opnd (zeroBuffer s.cfg.n)) with
  | .next t => t.b == s.b && t.sent == [scalarResponse s.cfg v] && t.flt == false
  | _ => false

/-- The command raised IllegalCommand: the fault record, the response, every register kept. -/
def raised (s : State) (ctl : CtlWord) : Bool :=
  match step (presenting s ctl 0 (zeroBuffer s.cfg.n)) with
  | .next t => t.b == s.b && t.flt && t.cause == 1 && t.fctl == ctl &&
      t.sent == [{ status := .illegal, res := 0, dout := zeroBuffer s.cfg.n }]
  | _ => false

/-- The word decodes to the instruction. -/
def decodesTo (w : CtlWord) (i : Instr) : Bool :=
  match decode w with
  | .ok j => j == i
  | .error _ => false

/-- The word is illegal for the reason. -/
def refusedFor (w : CtlWord) (e : Illegal) : Bool :=
  match decode w with
  | .ok _ => false
  | .error f => f == e

/-! ## Well-formedness -/

/-- A data input one byte short of `N` is refused. -/
theorem test_wellFormed_refuses_short_din :
    Command.wellFormed ⟨3, .little⟩ { ctl := 1, opnd := 0, din := [1, 2, 3] } = false := by decide

/-- A data input one byte longer than `N` is refused. -/
theorem test_wellFormed_refuses_long_din :
    Command.wellFormed ⟨3, .little⟩ { ctl := 1, opnd := 0, din := [1, 2, 3, 4, 5] } = false := by decide

/-- A register of the wrong length is refused. -/
theorem test_hasLength_refuses_empty_buffer : Buffer.hasLength ⟨0, .big⟩ [] = false := by decide

/-- A data input of `N` bytes is accepted, whatever the control word is. -/
theorem test_wellFormed_accepts :
    Command.wellFormed ⟨3, .big⟩ { ctl := 0xFFFFFFFF, opnd := 7, din := [1, 2, 3, 4] } = true := by decide

/-! ## Decoding: one word of every instruction, as the spec writes it out -/

/-- ZERO b3, V-CON-1. -/
theorem test_decode_zero : decodesTo 0x00000301#32 (.zero 3) = true := by decide

/-- FILL b2, 0xA5, V-CON-2. -/
theorem test_decode_fill : decodesTo 0xA5000202#32 (.fill 2 0xA5#8) = true := by decide

/-- LDA b1, V-CON-5. -/
theorem test_decode_lda : decodesTo 0x00000103#32 (.lda 1) = true := by decide

/-- LDP b1, V-CON-7. -/
theorem test_decode_ldp : decodesTo 0x00000104#32 (.ldp 1) = true := by decide

/-- LDI.4 b1, V-CON-12. -/
theorem test_decode_ldi : decodesTo 0x00200105#32 (.ldi 1 .w4) = true := by decide

/-- MOV b2, b1, V-CON-21. -/
theorem test_decode_mov : decodesTo 0x00001206#32 (.mov 2 1) = true := by decide

/-- GETB b1, V-GETB-1. -/
theorem test_decode_getb : decodesTo 0x00001010#32 (.getb 1) = true := by decide

/-- PUTB b3, 2, 0x7F, V-PUTB-1. -/
theorem test_decode_putb : decodesTo 0x7F000311#32 (.putb 3 0x7F#8) = true := by decide

/-- GETBU b1, V-GETBU-1. -/
theorem test_decode_getbu : decodesTo 0x00001012#32 (.getbu 1) = true := by decide

/-- PUTBU b3, 0, 0xEE, V-PUTBU-1. -/
theorem test_decode_putbu : decodesTo 0xEE000313#32 (.putbu 3 0xEE#8) = true := by decide

/-- RDA b9, V-RDA-3. -/
theorem test_decode_rda : decodesTo 0x00009014#32 (.rda 9) = true := by decide

/-- AND b3, b1, b2, V-LOG-1. -/
theorem test_decode_and : decodesTo 0x00021320#32 (.and 3 1 2) = true := by decide

/-- OR b2, b1, b2, V-LOG-7. -/
theorem test_decode_or : decodesTo 0x00021221#32 (.or 2 1 2) = true := by decide

/-- XOR b3, b1, b2, V-LOG-3. -/
theorem test_decode_xor : decodesTo 0x00021322#32 (.xor 3 1 2) = true := by decide

/-- NOT b2, b1, V-LOG-4. -/
theorem test_decode_not : decodesTo 0x00001223#32 (.not 2 1) = true := by decide

/-- CMPEQ b1, b3, V-CMP-2. -/
theorem test_decode_cmpeq : decodesTo 0x00031024#32 (.cmpeq 1 3) = true := by decide

/-- CMPLT b2, b1, V-CMP-5. -/
theorem test_decode_cmplt : decodesTo 0x00012025#32 (.cmplt 2 1) = true := by decide

/-- SHL b2, b1, V-SHL-1. -/
theorem test_decode_shl : decodesTo 0x00001230#32 (.shl 2 1) = true := by decide

/-- SHR b2, b1, V-SHR-1. -/
theorem test_decode_shr : decodesTo 0x00001231#32 (.shr 2 1) = true := by decide

/-- ROL b2, b1, V-ROL-1. -/
theorem test_decode_rol : decodesTo 0x00001232#32 (.rol 2 1) = true := by decide

/-- ROR b3, b2, program P3 step 8. -/
theorem test_decode_ror : decodesTo 0x00002333#32 (.ror 3 2) = true := by decide

/-- SETBIT b2, program P7 step 5. -/
theorem test_decode_setbit : decodesTo 0x00000240#32 (.setbit 2) = true := by decide

/-- CLRBIT b1, V-BIT-7. -/
theorem test_decode_clrbit : decodesTo 0x00000141#32 (.clrbit 1) = true := by decide

/-- TGLBIT b1, V-BIT-10. -/
theorem test_decode_tglbit : decodesTo 0x00000142#32 (.tglbit 1) = true := by decide

/-- TSTBIT b1, V-BIT-13. -/
theorem test_decode_tstbit : decodesTo 0x00001043#32 (.tstbit 1) = true := by decide

/-- POPCNT b5, V-BIT-19. -/
theorem test_decode_popcnt : decodesTo 0x00005044#32 (.popcnt 5) = true := by decide

/-- TOINT.2 b1, V-INT-2. -/
theorem test_decode_toint : decodesTo 0x00101050#32 (.toint 1 .w2) = true := by decide

/-- REV b2, b1, V-END-1. -/
theorem test_decode_rev : decodesTo 0x00001260#32 (.rev 2 1) = true := by decide

/-- TOLE b3, b2, V-END-7. -/
theorem test_decode_tole : decodesTo 0x00002361#32 (.tole 3 2) = true := by decide

/-- TOBE b2, b1, V-END-5. -/
theorem test_decode_tobe : decodesTo 0x00001262#32 (.tobe 2 1) = true := by decide

/-- TONET b2, b1, V-END-9. -/
theorem test_decode_tonet : decodesTo 0x00001263#32 (.tonet 2 1) = true := by decide

/-- FROMLE b2, b1, V-END-11. -/
theorem test_decode_fromle : decodesTo 0x00001264#32 (.fromle 2 1) = true := by decide

/-- FROMBE b3, b2, V-END-8. -/
theorem test_decode_frombe : decodesTo 0x00002365#32 (.frombe 3 2) = true := by decide

/-- FROMNET b2, b1, V-END-15. -/
theorem test_decode_fromnet : decodesTo 0x00001266#32 (.fromnet 2 1) = true := by decide

/-- TOEND.big b2, b1, V-END-19. -/
theorem test_decode_toend : decodesTo 0x00401267#32 (.toend 2 1 .big) = true := by decide

/-- FROMEND.little b2, b1, V-END-25. -/
theorem test_decode_fromend : decodesTo 0x00001268#32 (.fromend 2 1 .little) = true := by decide

/-- NORMLE b1, V-END-27. -/
theorem test_decode_normle : decodesTo 0x00000169#32 (.normle 1) = true := by decide

/-- NORMBE b1, V-END-29. -/
theorem test_decode_normbe : decodesTo 0x0000016A#32 (.normbe 1) = true := by decide

/-- TOINTE.2.big b1, V-END-33. -/
theorem test_decode_tointe : decodesTo 0x0050106B#32 (.tointe 1 .w2 .big) = true := by decide

/-- LDIE.4.native b1, V-END-49. -/
theorem test_decode_ldie : decodesTo 0x00A0016C#32 (.ldie 1 .w4 .native) = true := by decide

/-- Field by field from rule R65: imm8 = 0, ordc = 1, szc = 2, rs2 = 0, rs1 = 1, rd = 0, opcode = 0x6B is `TOINTE.4.big b1`. -/
theorem test_decode_bit_by_bit :
    decodesTo (0b00000000#8 ++ 0b01#2 ++ 0b10#2 ++ 0b0000#4 ++ 0b0001#4 ++ 0b0000#4 ++ 0b01101011#8) (.tointe 1 .w4 .big) = true := by
  decide

/-- V-ILL-1, V-ILL-3, V-ILL-10: unassigned opcodes. -/
theorem test_decode_refuses_unassigned :
    [0x00000000#32, 0xFFFFFFFF#32, 0x0000006D#32].all (fun w => refusedFor w .unassignedOpcode) = true := by decide

/-- V-ILL-12 to V-ILL-19: a field that is not live is not zero. -/
theorem test_decode_refuses_nonlive_fields :
    [0x00001301#32, 0x00200301#32, 0x01000301#32, 0x00600105#32, 0x00011206#32, 0x01021320#32, 0x00101010#32, 0x00001124#32].all
      (fun w => refusedFor w .nonLiveField) = true := by decide

/-- V-ILL-20 to V-ILL-23: the reserved byte-order code. -/
theorem test_decode_refuses_reserved_order :
    [0x00C01267#32, 0x00C01268#32, 0x00E0106B#32, 0x00C0016C#32].all (fun w => refusedFor w .reservedOrder) = true := by decide

/-- The table's word of FILL with its live bits zero. -/
theorem test_decodeTableWord : decodeTableWord 32 2 = some (.fill 0 0) := by decide

/-- Rule R75's own example of suffixes, and a data list. -/
theorem test_assembler_text : Instr.text (.tointe 1 .w4 .big) 0 [] = "TOINTE.4.big b1" ∧
    Instr.text (.lda 1) 0 [0xDD, 0xCC, 0xBB, 0xAA] = "LDA b1, [DD CC BB AA]" := by decide

/-- Rule R77's example: `LDI.4 b1, 0xAABBCCDD` for `N = 4`. -/
theorem test_assemble :
    assemble ⟨3, .little⟩ (.ldi 1 .w4) 0xAABBCCDD [] = { ctl := 0x00200105, opnd := 0xAABBCCDD, din := [0, 0, 0, 0] } := by decide

/-! ## One step of every instruction -/

/-- V-CON-1. -/
theorem test_zero_clears :
    wrote (engine 3 .little [(3, [0xA5, 0xA5, 0xA5, 0xA5])]) 0x00000301 0 (zeroBuffer 4)
      3 [0x00, 0x00, 0x00, 0x00] = true := by decide

/-- V-ILL-24. -/
theorem test_zero_ignores_operand :
    wrote (engine 3 .little []) 0x00000101 0xDEADBEEFDEADBEEF [0xFF, 0xFF, 0xFF, 0xFF]
      1 [0x00, 0x00, 0x00, 0x00] = true := by decide

/-- V-CON-2. -/
theorem test_fill :
    wrote (engine 3 .little []) 0xA5000202 0 (zeroBuffer 4) 2 [0xA5, 0xA5, 0xA5, 0xA5] = true := by decide

/-- V-ILL-27. -/
theorem test_fill_ignores_operand :
    wrote (engine 3 .little []) 0xFF000202 7 [0x01, 0x02, 0x03, 0x04] 2 [0xFF, 0xFF, 0xFF, 0xFF] = true := by decide

/-- V-CON-6. -/
theorem test_lda :
    wrote (engine 3 .big []) 0x00000103 0 [0xDD, 0xCC, 0xBB, 0xAA] 1 [0xDD, 0xCC, 0xBB, 0xAA] = true := by decide

/-- V-CON-7. -/
theorem test_ldp_short :
    wrote (engine 3 .little [(1, [0xDD, 0xCC, 0xBB, 0xAA])]) 0x00000104 2 [0x11, 0x22, 0x33, 0x44]
      1 [0x11, 0x22, 0x00, 0x00] = true := by decide

/-- V-CON-11. -/
theorem test_ldp_largest :
    wrote (engine 3 .little []) 0x00000104 0xFFFFFFFFFFFFFFFF [0x11, 0x22, 0x33, 0x44]
      1 [0x11, 0x22, 0x33, 0x44] = true := by decide

/-- V-CON-14. -/
theorem test_ldi_zero_fill :
    wrote (engine 3 .little [(1, [0xDD, 0xCC, 0xBB, 0xAA])]) 0x00100105 0xBEEF (zeroBuffer 4)
      1 [0xEF, 0xBE, 0x00, 0x00] = true := by decide

/-- V-CON-18. -/
theorem test_ldi_truncates :
    wrote (engine 1 .little []) 0x00200105 0xAABBCCDD (zeroBuffer 2) 1 [0xDD, 0xCC] = true := by decide

/-- V-CON-21. -/
theorem test_mov :
    wrote (engine 3 .little [(1, [0xDD, 0xCC, 0xBB, 0xAA]), (2, [0x01, 0x02, 0x03, 0x04])]) 0x00001206 0 (zeroBuffer 4)
      2 [0xDD, 0xCC, 0xBB, 0xAA] = true := by decide

/-- V-PUTB-1. -/
theorem test_putb :
    wrote (engine 3 .little []) 0x7F000311 2 (zeroBuffer 4) 3 [0x00, 0x00, 0x7F, 0x00] = true := by decide

/-- V-PUTB-2. -/
theorem test_putb_clamped :
    wrote (engine 3 .little [(3, [0x00, 0x00, 0x7F, 0x00])]) 0x01000311 100 (zeroBuffer 4)
      3 [0x00, 0x00, 0x7F, 0x01] = true := by decide

/-- V-PUTBU-2. -/
theorem test_putbu :
    wrote (engine 3 .little [(3, [0xDD, 0xCC, 0xBB, 0xAA])]) 0x11000313 3 (zeroBuffer 4)
      3 [0xDD, 0xCC, 0xBB, 0x11] = true := by decide

/-- V-LOG-6. -/
theorem test_and_in_place :
    wrote (engine 3 .little [(1, [0xDD, 0xCC, 0xBB, 0xAA]), (2, [0xF0, 0x0F, 0x3C, 0x55])]) 0x00021120 0 (zeroBuffer 4)
      1 [0xD0, 0x0C, 0x38, 0x00] = true := by decide

/-- V-LOG-7. -/
theorem test_or_in_place :
    wrote (engine 3 .little [(1, [0xDD, 0xCC, 0xBB, 0xAA]), (2, [0xF0, 0x0F, 0x3C, 0x55])]) 0x00021221 0 (zeroBuffer 4)
      2 [0xFD, 0xCF, 0xBF, 0xFF] = true := by decide

/-- V-LOG-3. -/
theorem test_xor :
    wrote (engine 3 .little [(1, [0xF0, 0xF0, 0xF0, 0xF0]), (2, [0x3C, 0x3C, 0x3C, 0x3C])]) 0x00021322 0 (zeroBuffer 4)
      3 [0xCC, 0xCC, 0xCC, 0xCC] = true := by decide

/-- V-LOG-5. -/
theorem test_xor_all_equal :
    wrote (engine 3 .little [(1, [0xDD, 0xCC, 0xBB, 0xAA])]) 0x00011122 0 (zeroBuffer 4)
      1 [0x00, 0x00, 0x00, 0x00] = true := by decide

/-- V-LOG-4. -/
theorem test_not :
    wrote (engine 3 .little [(1, [0xDD, 0xCC, 0xBB, 0xAA])]) 0x00001223 0 (zeroBuffer 4)
      2 [0x22, 0x33, 0x44, 0x55] = true := by decide

/-- V-SHL-15. -/
theorem test_shl_in_place_carries :
    wrote (engine 3 .little [(1, [0xDD, 0xCC, 0xBB, 0xAA])]) 0x00001130 12 (zeroBuffer 4)
      1 [0x00, 0xD0, 0xCD, 0xBC] = true := by decide

/-- V-SHL-19. -/
theorem test_shl_by_width :
    wrote (engine 2 .little [(1, [0x56, 0x34, 0x12])]) 0x00001230 24 (zeroBuffer 3) 2 [0x00, 0x00, 0x00] = true := by decide

/-- V-SHR-6. -/
theorem test_shr_carries :
    wrote (engine 3 .little [(1, [0xDD, 0xCC, 0xBB, 0xAA])]) 0x00001231 9 (zeroBuffer 4)
      2 [0xE6, 0x5D, 0x55, 0x00] = true := by decide

/-- V-SHR-12. -/
theorem test_shr_past_width :
    wrote (engine 3 .little [(1, [0xDD, 0xCC, 0xBB, 0xAA])]) 0x00001231 33 (zeroBuffer 4)
      2 [0x00, 0x00, 0x00, 0x00] = true := by decide

/-- V-ROL-17. -/
theorem test_rol_true_remainder :
    wrote (engine 2 .little [(1, [0x56, 0x34, 0x12])]) 0x00001232 0xFFFFFFFFFFFFFFFF (zeroBuffer 3)
      2 [0x1A, 0x09, 0x2B] = true := by decide

/-- V-ROL-21. -/
theorem test_rol_in_place :
    wrote (engine 3 .little [(1, [0xDD, 0xCC, 0xBB, 0xAA])]) 0x00001132 5 (zeroBuffer 4)
      1 [0xB5, 0x9B, 0x79, 0x57] = true := by decide

/-- V-ROR-12. -/
theorem test_ror_true_remainder :
    wrote (engine 2 .little [(1, [0x56, 0x34, 0x12])]) 0x00001233 15 (zeroBuffer 3) 2 [0x24, 0xAC, 0x68] = true := by decide

/-- V-ROR-13. -/
theorem test_ror_one_byte :
    wrote (engine 0 .little [(1, [0x81])]) 0x00001233 1 (zeroBuffer 1) 2 [0xC0] = true := by decide

/-- V-BIT-3. -/
theorem test_setbit_top :
    wrote (engine 3 .little [(0, [0x80, 0x01, 0x00, 0x00])]) 0x00000040 31 (zeroBuffer 4)
      0 [0x80, 0x01, 0x00, 0x80] = true := by decide

/-- V-BIT-4. -/
theorem test_setbit_at_width :
    wrote (engine 3 .little [(0, [0x80, 0x01, 0x00, 0x00])]) 0x00000040 32 (zeroBuffer 4)
      0 [0x80, 0x01, 0x00, 0x00] = true := by decide

/-- V-BIT-7. -/
theorem test_clrbit :
    wrote (engine 3 .little [(1, [0xFF, 0xFF, 0xFF, 0xFF])]) 0x00000141 9 (zeroBuffer 4)
      1 [0xFF, 0xFD, 0xFF, 0xFF] = true := by decide

/-- V-BIT-8. -/
theorem test_clrbit_out_of_range :
    wrote (engine 3 .little [(1, [0xFF, 0xFF, 0xFF, 0xFF])]) 0x00000141 40 (zeroBuffer 4)
      1 [0xFF, 0xFF, 0xFF, 0xFF] = true := by decide

/-- V-BIT-10. -/
theorem test_tglbit :
    wrote (engine 3 .little [(1, [0xDD, 0xCC, 0xBB, 0xAA])]) 0x00000142 31 (zeroBuffer 4)
      1 [0xDD, 0xCC, 0xBB, 0x2A] = true := by decide

/-- V-BIT-12. -/
theorem test_tglbit_at_width :
    wrote (engine 3 .little [(1, [0xDD, 0xCC, 0xBB, 0xAA])]) 0x00000142 32 (zeroBuffer 4)
      1 [0xDD, 0xCC, 0xBB, 0xAA] = true := by decide

/-- V-END-56. -/
theorem test_rev_on_big_host :
    wrote (engine 3 .big [(1, [0xDD, 0xCC, 0xBB, 0xAA])]) 0x00001160 0 (zeroBuffer 4)
      1 [0xAA, 0xBB, 0xCC, 0xDD] = true := by decide

/-- V-END-51. -/
theorem test_rev_odd_length :
    wrote (engine 2 .little [(1, [0x56, 0x34, 0x12])]) 0x00001260 0 (zeroBuffer 3) 2 [0x12, 0x34, 0x56] = true := by decide

/-- V-END-3. -/
theorem test_tole_on_little_host :
    wrote (engine 3 .little [(1, [0xDD, 0xCC, 0xBB, 0xAA])]) 0x00001261 0 (zeroBuffer 4)
      2 [0xDD, 0xCC, 0xBB, 0xAA] = true := by decide

/-- V-END-4. -/
theorem test_tole_on_big_host :
    wrote (engine 3 .big [(1, [0xDD, 0xCC, 0xBB, 0xAA])]) 0x00001261 0 (zeroBuffer 4)
      2 [0xAA, 0xBB, 0xCC, 0xDD] = true := by decide

/-- V-END-5. -/
theorem test_tobe_on_little_host :
    wrote (engine 3 .little [(1, [0xDD, 0xCC, 0xBB, 0xAA])]) 0x00001262 0 (zeroBuffer 4)
      2 [0xAA, 0xBB, 0xCC, 0xDD] = true := by decide

/-- V-END-6. -/
theorem test_tobe_on_big_host :
    wrote (engine 3 .big [(1, [0xDD, 0xCC, 0xBB, 0xAA])]) 0x00001262 0 (zeroBuffer 4)
      2 [0xDD, 0xCC, 0xBB, 0xAA] = true := by decide

/-- V-END-9. -/
theorem test_tonet_on_little_host :
    wrote (engine 3 .little [(1, [0xDD, 0xCC, 0xBB, 0xAA])]) 0x00001263 0 (zeroBuffer 4)
      2 [0xAA, 0xBB, 0xCC, 0xDD] = true := by decide

/-- V-END-10. -/
theorem test_tonet_on_big_host :
    wrote (engine 3 .big [(1, [0xDD, 0xCC, 0xBB, 0xAA])]) 0x00001263 0 (zeroBuffer 4)
      2 [0xDD, 0xCC, 0xBB, 0xAA] = true := by decide

/-- V-END-11. -/
theorem test_fromle_on_little_host :
    wrote (engine 3 .little [(1, [0xDD, 0xCC, 0xBB, 0xAA])]) 0x00001264 0 (zeroBuffer 4)
      2 [0xDD, 0xCC, 0xBB, 0xAA] = true := by decide

/-- V-END-12. -/
theorem test_fromle_on_big_host :
    wrote (engine 3 .big [(1, [0xDD, 0xCC, 0xBB, 0xAA])]) 0x00001264 0 (zeroBuffer 4)
      2 [0xAA, 0xBB, 0xCC, 0xDD] = true := by decide

/-- V-END-13. -/
theorem test_frombe_on_little_host :
    wrote (engine 3 .little [(1, [0x11, 0x22, 0x33, 0x44])]) 0x00001265 0 (zeroBuffer 4)
      2 [0x44, 0x33, 0x22, 0x11] = true := by decide

/-- V-END-14. -/
theorem test_frombe_on_big_host :
    wrote (engine 3 .big [(1, [0x11, 0x22, 0x33, 0x44])]) 0x00001265 0 (zeroBuffer 4)
      2 [0x11, 0x22, 0x33, 0x44] = true := by decide

/-- V-END-15. -/
theorem test_fromnet_on_little_host :
    wrote (engine 3 .little [(1, [0x11, 0x22, 0x33, 0x44])]) 0x00001266 0 (zeroBuffer 4)
      2 [0x44, 0x33, 0x22, 0x11] = true := by decide

/-- V-END-16. -/
theorem test_fromnet_on_big_host :
    wrote (engine 3 .big [(1, [0x11, 0x22, 0x33, 0x44])]) 0x00001266 0 (zeroBuffer 4)
      2 [0x11, 0x22, 0x33, 0x44] = true := by decide

/-- V-END-18. -/
theorem test_toend_little_on_big_host :
    wrote (engine 3 .big [(1, [0xDD, 0xCC, 0xBB, 0xAA])]) 0x00001267 0 (zeroBuffer 4)
      2 [0xAA, 0xBB, 0xCC, 0xDD] = true := by decide

/-- V-END-22. -/
theorem test_toend_native_on_big_host :
    wrote (engine 3 .big [(1, [0xDD, 0xCC, 0xBB, 0xAA])]) 0x00801267 0 (zeroBuffer 4)
      2 [0xDD, 0xCC, 0xBB, 0xAA] = true := by decide

/-- V-END-23. -/
theorem test_fromend_big_on_little_host :
    wrote (engine 3 .little [(1, [0x11, 0x22, 0x33, 0x44])]) 0x00401268 0 (zeroBuffer 4)
      2 [0x44, 0x33, 0x22, 0x11] = true := by decide

/-- V-END-25. -/
theorem test_fromend_little_on_little_host :
    wrote (engine 3 .little [(1, [0x11, 0x22, 0x33, 0x44])]) 0x00001268 0 (zeroBuffer 4)
      2 [0x11, 0x22, 0x33, 0x44] = true := by decide

/-- V-END-27. -/
theorem test_normle_on_little_host :
    wrote (engine 3 .little [(1, [0xDD, 0xCC, 0xBB, 0xAA])]) 0x00000169 0 (zeroBuffer 4)
      1 [0xDD, 0xCC, 0xBB, 0xAA] = true := by decide

/-- V-END-28. -/
theorem test_normle_on_big_host :
    wrote (engine 3 .big [(1, [0xDD, 0xCC, 0xBB, 0xAA])]) 0x00000169 0 (zeroBuffer 4)
      1 [0xAA, 0xBB, 0xCC, 0xDD] = true := by decide

/-- V-END-29. -/
theorem test_normbe_on_little_host :
    wrote (engine 3 .little [(1, [0xDD, 0xCC, 0xBB, 0xAA])]) 0x0000016A 0 (zeroBuffer 4)
      1 [0xAA, 0xBB, 0xCC, 0xDD] = true := by decide

/-- V-END-30. -/
theorem test_normbe_on_big_host :
    wrote (engine 3 .big [(1, [0xDD, 0xCC, 0xBB, 0xAA])]) 0x0000016A 0 (zeroBuffer 4)
      1 [0xDD, 0xCC, 0xBB, 0xAA] = true := by decide

/-- V-END-45. -/
theorem test_ldie_short_on_foreign_host :
    wrote (engine 3 .little []) 0x0050016C 0xBEEF (zeroBuffer 4) 1 [0x00, 0x00, 0xBE, 0xEF] = true := by decide

/-- V-END-47. -/
theorem test_ldie_truncates_first :
    wrote (engine 3 .little []) 0x0070016C 0x1122334455667788 (zeroBuffer 4) 1 [0x55, 0x66, 0x77, 0x88] = true := by decide

/-- V-GETB-2. -/
theorem test_getb :
    answered (engine 3 .little [(1, [0xDD, 0xCC, 0xBB, 0xAA])]) 0x00001010 3 0xAA = true := by decide

/-- V-GETB-4. -/
theorem test_getb_clamps_not_wraps :
    answered (engine 3 .little [(1, [0xDD, 0xCC, 0xBB, 0xAA])]) 0x00001010 5 0xAA = true := by decide

/-- V-GETBU-2. -/
theorem test_getbu :
    answered (engine 3 .little [(1, [0xDD, 0xCC, 0xBB, 0xAA])]) 0x00001012 3 0xAA = true := by decide

/-- V-CMP-1. -/
theorem test_cmpeq_equal :
    answered (engine 3 .little [(1, [0xDD, 0xCC, 0xBB, 0xAA]), (2, [0xDD, 0xCC, 0xBB, 0xAA])]) 0x00021024 0 1 = true := by decide

/-- V-CMP-2. -/
theorem test_cmpeq_last_byte_differs :
    answered (engine 3 .little [(1, [0xDD, 0xCC, 0xBB, 0xAA]), (3, [0xDD, 0xCC, 0xBB, 0xAB])]) 0x00031024 0 0 = true := by decide

/-- V-CMP-4. -/
theorem test_cmplt_byte_zero_decides :
    answered (engine 3 .little [(1, [0x01, 0x00, 0x00, 0x02]), (2, [0x02, 0x00, 0x00, 0x01])]) 0x00021025 0 1 = true := by decide

/-- V-CMP-9. -/
theorem test_cmplt_not_by_value :
    answered (engine 3 .little [(1, [0xFF, 0x00, 0x00, 0x00]), (2, [0x00, 0xFF, 0xFF, 0xFF])]) 0x00021025 0 0 = true := by decide

/-- V-BIT-15. -/
theorem test_tstbit_top :
    answered (engine 3 .little [(1, [0xDD, 0xCC, 0xBB, 0xAA])]) 0x00001043 31 1 = true := by decide

/-- V-BIT-17. -/
theorem test_tstbit_out_of_range :
    answered (engine 3 .little [(1, [0xFF, 0xFF, 0xFF, 0xFF])]) 0x00001043 0xFFFFFFFFFFFFFFFF 0 = true := by decide

/-- V-BIT-18. -/
theorem test_popcnt :
    answered (engine 3 .little [(1, [0xDD, 0xCC, 0xBB, 0xAA])]) 0x00001044 0 20 = true := by decide

/-- V-BIT-21. -/
theorem test_popcnt_ones :
    answered (engine 2 .little [(1, [0xFF, 0xFF, 0xFF])]) 0x00001044 0 24 = true := by decide

/-- V-INT-2. -/
theorem test_toint_truncates :
    answered (engine 3 .little [(1, [0xDD, 0xCC, 0xBB, 0xAA])]) 0x00101050 0 0xCCDD = true := by decide

/-- V-INT-10. -/
theorem test_toint_zero_extends :
    answered (engine 2 .little [(1, [0x56, 0x34, 0x12])]) 0x00201050 0 0x123456 = true := by decide

/-- V-END-33. -/
theorem test_tointe_foreign_last_bytes :
    answered (engine 3 .little [(1, [0x11, 0x22, 0x33, 0x44])]) 0x0050106B 0 0x3344 = true := by decide

/-- V-END-38. -/
theorem test_tointe_native :
    answered (engine 3 .big [(1, [0x11, 0x22, 0x33, 0x44])]) 0x00A0106B 0 0x44332211 = true := by decide

/-- V-RDA-2: storage order on a big-endian host. -/
theorem test_rda :
    (after (step (presenting (engine 3 .big [(1, [0xDD, 0xCC, 0xBB, 0xAA])]) 0x00001014 0 (zeroBuffer 4))) State.reset).sent =
      [{ status := .ok, res := 0, dout := [0xDD, 0xCC, 0xBB, 0xAA] }] := by decide

/-- V-GETBU-3, V-PUTBU-3: the first index out of range is the fault of the model. -/
theorem test_unchecked_out_of_range :
    [0x00001012, 0xEE000313].all (fun w => match step (presenting (engine 3 .little []) w 4 (zeroBuffer 4)) with
      | .fault .uncheckedIndex => true
      | _ => false) = true := by decide

/-! ## The exception, the faulted state, reset -/

/-- V-ILL-1, V-ILL-2, V-ILL-20: an illegal word in the reset state. -/
theorem test_illegal_command :
    [0x00000000#32, 0x000000FF#32, 0x00C01267#32].all (raised (engine 3 .little [])) = true := by decide

/-- An engine in the state of program P5 after its step 2. -/
def faulted : State :=
  { engine 3 .little [(1, [0xDD, 0xCC, 0xBB, 0xAA])] with flt := true, cause := 1, fctl := 0x00C01267 }

/-- Program P5 steps 3 and 4: a legal and an illegal command are rejected, the register and the fault record stay. -/
theorem test_faulted_rejects :
    [0x00201050#32, 0x00000000#32].all (fun w => match step (presenting faulted w 0 (zeroBuffer 4)) with
      | .next t => t.b == faulted.b && t.flt && t.fctl == 0x00C01267 && t.sent.map Response.status == [.rejected]
      | _ => false) = true := by decide

/-- Program P5 step 5: reset leaves the faulted state and zeroes the registers. -/
theorem test_reset_event :
    after (step { faulted with host := [.reset] }) faulted = State.resetFor ⟨3, .little⟩ := by decide

/-- Program P5 after step 5: the reset state does not depend on the faulted one. -/
theorem test_outputs_after_reset :
    (State.resetFor ⟨3, .little⟩).outputs =
      { cfgN := 4, cfgIsLittle := 1, cfgIsBig := 0, stFlt := 0, stCause := 0, stFctl := 0 } := by decide

/-- The host runs a table word as the first instruction after reset, whatever the straps are: `TSTBIT b0` answers. -/
theorem test_first_instruction_after_reset :
    (match step (State.reset.withFetchWord 32 0x00000043) with
      | .next t => t.sent.length == 1 && t.flt == false
      | _ => false) = true := by decide

/-! ## Witnesses: for every obligation with hypotheses, a case that meets them all -/

/-- A working engine of four bytes, two registers loaded, `N` as the operand of the command it has sampled. -/
def sample : State :=
  { engine 3 .little [(1, [0xDD, 0xCC, 0xBB, 0xAA]), (2, [0xDD, 0xCC, 0xBB, 0xAB])] with
    cmd := { ctl := 0x00001010, opnd := 4, din := [1, 2, 3, 4] } }

/-- The same with another operand. -/
def sampleAt (v : Scalar) : State := { sample with cmd := { sample.cmd with opnd := v } }

/-- The same engine on a big-endian host. -/
def sampleBig : State := { sample with cfg := ⟨3, .big⟩ }

/-- An engine of one byte. -/
def small : State := engine 0 .little [(1, [0x5A])]

/-- `POPCNT b1` as a command. -/
def popcntCommand : Command := { ctl := 0x00001044, opnd := 0, din := [0, 0, 0, 0] }

/-- The all-zero control word as a command. -/
def zeroWordCommand : Command := { ctl := 0, opnd := 0, din := [0, 0, 0, 0] }

theorem test_witness_EncodeOfDecodeIsTheWord : decode 0x00021320#32 = .ok (.and 3 1 2) := by decide

theorem test_witness_AtMostOneRowSelectsAWord :
    ∃ r ∈ opcodeTable, r.selects 0x00021320#32 = true := ⟨⟨"AND", 0x20#8, 0x00000020#32, 0xFFF000FF#32, false⟩, by decide, by decide⟩

/-- Both sides of the equivalence occur. -/
theorem test_witness_IllegalCommandIsRaisedExactlyOnIllegalWords :
    ({ sample with host := [.command zeroWordCommand] } : State).flt = false ∧ illegalWord zeroWordCommand.ctl = true ∧
      illegalWord popcntCommand.ctl = false := by decide

theorem test_witness_StepExecutesTheDecodedCommand :
    ({ sample with host := [.command popcntCommand] } : State).flt = false ∧
      ({ sample with host := [.command popcntCommand] } : State).host = .command popcntCommand :: [] ∧
      decode popcntCommand.ctl = .ok (.popcnt 1) := by decide

theorem test_witness_IllegalCommandWritesTheFaultRecordOnly :
    ({ sample with host := [.command zeroWordCommand] } : State).flt = false ∧
      ({ sample with host := [.command zeroWordCommand] } : State).host = .command zeroWordCommand :: [] ∧
      decode zeroWordCommand.ctl = .error .unassignedOpcode := by decide

theorem test_witness_FaultedEngineRejectsEveryCommand :
    faulted.flt = true ∧ ({ faulted with host := [.command popcntCommand, .command zeroWordCommand] } : State).host =
      [popcntCommand, zeroWordCommand].map .command := by decide

theorem test_witness_OnlyResetLeavesTheFaultedState :
    step { faulted with host := [.reset] } = .next (State.resetFor ⟨3, .little⟩) ∧ faulted.flt = true ∧
      (State.resetFor ⟨3, .little⟩).flt = false := ⟨rfl, rfl, rfl⟩

theorem test_witness_ResetTakesAnyStateToTheResetState :
    ({ faulted with host := [.reset, .command popcntCommand] } : State).host = .reset :: [.command popcntCommand] := by decide

theorem test_witness_IdleStepKeepsTheState : sample.host = [] := by decide

/-- A state with the invariant, faulted and with a response given, and a step of it. -/
theorem test_witness_EveryStepKeepsTheInvariant :
    faulted.Inv ∧ step { faulted with host := [.command popcntCommand] } =
      .next (after (step { faulted with host := [.command popcntCommand] }) faulted) ∧
      ({ faulted with host := [.command popcntCommand] } : State).Inv :=
  have h : faulted.registersComplete := by unfold State.registersComplete; decide
  ⟨⟨h, ⟨rfl, .reservedOrder, rfl⟩, by intro r hr; cases hr⟩, rfl,
    ⟨h, ⟨rfl, .reservedOrder, rfl⟩, by intro r hr; cases hr⟩⟩

theorem test_witness_EveryCommandGetsOneResponse :
    ({ sample with host := [.command popcntCommand] } : State).host = .command popcntCommand :: [] ∧
      step { sample with host := [.command popcntCommand] } =
        .next (after (step { sample with host := [.command popcntCommand] }) sample) := ⟨rfl, rfl⟩

theorem test_witness_SteppingTheHostQueueIsTheRunOfItsCommands :
    ({ sample with host := [.command popcntCommand, .command zeroWordCommand] } : State).host =
      [popcntCommand, zeroWordCommand].map .command := by decide

theorem test_witness_OutputsShowStrapsAndFaultRecord :
    step { sample with host := [.command popcntCommand] } =
      .next (after (step { sample with host := [.command popcntCommand] }) sample) := rfl

theorem test_witness_RunsOfLegalCommandsEndWell :
    sample.flt = false ∧ ∀ c ∈ [popcntCommand, { popcntCommand with ctl := 0x00001012, opnd := 3 }],
      ∃ i, decode c.ctl = .ok i ∧ (uncheckedAccess i = true → c.opnd.toNat < sample.cfg.n) := by
  refine ⟨by decide, fun c hc => ?_⟩
  rcases List.mem_cons.mp hc with rfl | hc
  · exact ⟨.popcnt 1, by decide, by decide⟩
  · obtain rfl := List.mem_singleton.mp hc
    exact ⟨.getbu 1, by decide, by decide⟩

/-- A register that is no destination exists, and the command completes. -/
theorem test_witness_CommandsChangeOnlyTheirDestination :
    exec (.rol 3 1) sample = .next (after (exec (.rol 3 1) sample) sample) ∧ (Instr.rol 3 1).dest ≠ some 2 := ⟨rfl, by decide⟩

/-- Two states that differ in a register AND does not name and in the operand it does not read. -/
theorem test_witness_ResultDependsOnlyOnNamedSources :
    (sampleAt 9).setReg 7 [1, 1, 1, 1] ≠ sample ∧ ((sampleAt 9).setReg 7 [1, 1, 1, 1]).cfg = sample.cfg ∧
      ((sampleAt 9).setReg 7 [1, 1, 1, 1]).sent = sample.sent ∧
      (∀ r ∈ (Instr.and 3 1 2).sources, ((sampleAt 9).setReg 7 [1, 1, 1, 1]).reg r = sample.reg r) ∧
      (Instr.and 3 1 2).readsOpnd = false ∧ (Instr.and 3 1 2).readsDin = false ∧
      exec (.and 3 1 2) sample = .next (after (exec (.and 3 1 2) sample) sample) :=
  ⟨by decide, by decide, by decide, by decide, rfl, rfl, rfl⟩

theorem test_witness_OnlyConversionsReadTheHostOrder :
    (Instr.rol 3 1).readsNative = false ∧ exec (.rol 3 1) sample = .next (after (exec (.rol 3 1) sample) sample) := ⟨rfl, rfl⟩

/-- The last index in range, for the one premise on GETBU and PUTBU. -/
theorem test_witness_EveryLegalCommandCompletesOk :
    uncheckedAccess (.getbu 1) = true ∧ (sampleAt 3).cmd.opnd.toNat < (sampleAt 3).cfg.n := by decide

theorem test_witness_ReadingCommandsChangeNothingAndRepeat :
    (Instr.getbu 1).dest = none ∧
      exec (.getbu 1) (sampleAt 3) = .next (after (exec (.getbu 1) (sampleAt 3)) sample) := ⟨rfl, rfl⟩

/-- The clauses meet at `N - 1` and `N`. -/
theorem test_witness_PermissiveAccessClampsTheIndex :
    (sampleAt 3).cmd.opnd.toNat < (sampleAt 3).cfg.n ∧ sample.cfg.n ≤ sample.cmd.opnd.toNat ∧
      (sample.reg 1).length = sample.cfg.n ∧ ((sampleAt 3).reg 1).length = (sampleAt 3).cfg.n := by decide

/-- The clauses meet at `N - 1` and `N`. -/
theorem test_witness_UncheckedAccessIsDefinedBelowN :
    (sampleAt 3).cmd.opnd.toNat < (sampleAt 3).cfg.n ∧ sample.cfg.n ≤ sample.cmd.opnd.toNat ∧
      (sample.reg 1).length = sample.cfg.n ∧ ((sampleAt 3).reg 1).length = (sampleAt 3).cfg.n := by decide

theorem test_witness_RdaReadsOutWhatLdaLoaded : sample.cmd.wellFormed sample.cfg = true := by decide

/-- Complete registers: for the bitwise values, equality, shifts, bit mutation, conversions. -/
theorem test_witness_complete_registers :
    (sample.reg 1).length = sample.cfg.n ∧ (sample.reg 2).length = sample.cfg.n ∧ (small.reg 1).length = small.cfg.n := by
  decide

/-- Three buffers of one length, for the laws on buffers. -/
theorem test_witness_buffers_of_one_length :
    (sample.reg 1).length = 4 ∧ (sample.reg 2).length = 4 ∧ (sample.reg 3).length = 4 ∧ 0 < 4 := by decide

/-- Equal registers and registers that differ in the last byte only. -/
theorem test_witness_CmpeqDecidesEqualityOfRegisters :
    (∀ k < sample.cfg.n, byteAt (sample.reg 1) k = byteAt (sample.reg 1) k) ∧
      ¬(∀ k < sample.cfg.n, byteAt (sample.reg 1) k = byteAt (sample.reg 2) k) := by decide

/-- The last byte decides, one way and the other. -/
theorem test_witness_CmpltComparesFromByteZeroUp :
    (∃ k < sample.cfg.n, (∀ j < k, byteAt (sample.reg 1) j = byteAt (sample.reg 2) j) ∧
      (byteAt (sample.reg 1) k).toNat < (byteAt (sample.reg 2) k).toNat) ∧
      ¬(∃ k < sample.cfg.n, (∀ j < k, byteAt (sample.reg 2) j = byteAt (sample.reg 1) j) ∧
        (byteAt (sample.reg 2) k).toNat < (byteAt (sample.reg 1) k).toNat) := by decide

/-- A chain of three, and buffers of one byte. -/
theorem test_witness_LexicographicOrderIsStrictAndTotal :
    lexLess 2 [1, 9] [2, 0] = true ∧ lexLess 2 [2, 0] [2, 1] = true ∧ ([0x10#8] : Buffer).length = 1 ∧ 2 ≤ 2 := by decide

/-- The largest amount below `W`, and the least `n` of the last clause. -/
theorem test_witness_ShiftLaws : 0 < 4 ∧ (sample.reg 1).length = 4 ∧ 31 < 8 * 4 ∧ 2 ≤ 2 := by decide

theorem test_witness_RotateLaws : 0 < 3 ∧ ([0x56, 0x34, 0x12] : Buffer).length = 3 := by decide

/-- The last bit and the first index out of range, both with complete registers. -/
theorem test_witness_BitMutatorsChangeOneBitOrNone :
    ((sampleAt 31).reg 1).length = (sampleAt 31).cfg.n ∧ ((sampleAt 32).reg 1).length = (sampleAt 32).cfg.n ∧
      (sampleAt 32).cfg.w ≤ (sampleAt 32).cmd.opnd.toNat := by decide

/-- The clauses meet at `W - 1` and `W`. -/
theorem test_witness_TstbitAnswersTheBitOrZero :
    (sampleAt 31).cmd.opnd.toNat < (sampleAt 31).cfg.w ∧ (sampleAt 32).cfg.w ≤ (sampleAt 32).cmd.opnd.toNat := by decide

/-- A bit in range and another one, the first index out of range, the least `n` of the last clause. -/
theorem test_witness_BitLevelLaws :
    (sample.reg 1).length = 4 ∧ 31 < 8 * 4 ∧ 30 ≠ 31 ∧ 8 * 4 ≤ 32 ∧ 2 ≤ 2 := by decide

/-- An integer that fits its width: a width equal to `N`, and a width above `N`. -/
theorem test_witness_IntegerRoundTrip :
    (sampleAt 0xFFFFFFFF).cmd.opnd.toNat < 2 ^ (8 * Width.w4.bytes) ∧ Width.w4.bytes ≤ (sampleAt 0).cfg.n ∧
      (sampleAt 0xFFFFFFFFFFFFFFFF).cmd.opnd.toNat < 2 ^ (8 * Width.w8.bytes) ∧ (sampleAt 0).cfg.n < Width.w8.bytes ∧
      (sample.reg 1).length = 4 := by decide

/-- One byte, and an odd number of bytes above one. -/
theorem test_witness_RevReversesTheBytes :
    ([0x5A#8] : Buffer).length = 1 ∧ ([0x56#8, 0x34#8, 0x12#8] : Buffer).length = 3 ∧ 3 % 2 = 1 := by decide

/-- Both hosts, with complete registers. -/
theorem test_witness_both_hosts :
    sample.cfg.native = .little ∧ (sample.reg 1).length = sample.cfg.n ∧
      sampleBig.cfg.native = .big ∧ (sampleBig.reg 1).length = sampleBig.cfg.n := by decide

/-- Words of TOEND, TOINTE and LDIE with the reserved code. -/
theorem test_witness_reserved_order :
    (0x00C01267#32).extractLsb' 0 8 = 0x67#8 ∧ (0x00C01267#32).extractLsb' 22 2 = 3#2 ∧
      (0x00E0106B#32).extractLsb' 0 8 = 0x6B#8 ∧ (0x00E0106B#32).extractLsb' 22 2 = 3#2 ∧
      (0x00C0016C#32).extractLsb' 0 8 = 0x6C#8 ∧ (0x00C0016C#32).extractLsb' 22 2 = 3#2 := by decide

/-- The host's own order and the foreign one, on both hosts: TOINTE and LDIE. -/
theorem test_witness_own_and_foreign_order :
    (OrderName.little = .little ∧ sample.cfg.native = .little) ∧ (OrderName.big = .big ∧ sample.cfg.native = .little) ∧
      (OrderName.big = .big ∧ sampleBig.cfg.native = .big) ∧ (OrderName.little = .little ∧ sampleBig.cfg.native = .big) := by
  decide

/-- Buffers of `N` bytes, and an integer of a width equal to `N` that fits it. -/
theorem test_witness_EndiannessLaws :
    (sample.reg 1).length = sample.cfg.n ∧ (sample.reg 2).length = sample.cfg.n ∧ Width.w4.bytes ≤ (sampleAt 7).cfg.n ∧
      (sampleAt 0xFFFFFFFF).cmd.opnd.toNat < 2 ^ (8 * Width.w4.bytes) := by decide

/-- The largest number a port of four bytes carries, its last lane, and a register as its lanes. -/
theorem test_witness_PortLanesAreTheBytesOfTheNumber :
    3 < 4 ∧ 0xFFFFFFFF < 2 ^ (8 * 4) ∧ (sample.reg 1).length = 4 := by decide

/-- The least `N`, the last byte and the last bit of the integer. -/
theorem test_witness_RegisterReadsConsistentlyAtEveryWidth : 4 ≤ sample.cfg.n ∧ 3 < 4 ∧ 31 < 32 := by decide

end Sys2Proof.Tests
end

section
/-! PROOF. The scope of a command (spec/00_scope.md rules R10, R11): the ways a command can end, said for two states that agree on
what the command names. Taken with one state twice, this is the inversion of `exec`. -/

namespace Sys2Proof.Machine

/-- `s'` agrees with `s` on all that command `i` names: the straps, its source registers, and `opnd` and `din` if it reads them
(spec/00_scope.md rule R11). -/
structure AgreeOn (i : Instr) (s s' : State) : Prop where
  cfg : s'.cfg = s.cfg
  reg : ∀ r ∈ i.sources, s'.reg r = s.reg r
  opnd : i.readsOpnd = true → s'.cmd.opnd = s.cmd.opnd
  din : i.readsDin = true → s'.cmd.din = s.cmd.din

/-- The ways command `i` can end, from `s` with the first result and from `s'` with the second: both write the same bytes to its
destination, both leave its destination alone, both return the same scalar or the same buffer, or both stop on an index the spec
leaves UNDEFINED (spec/41_element_access.md rule R124). -/
inductive EndAlike (s s' : State) (i : Instr) : Result → Result → Prop
  | write {rd : Reg} (hd : i.dest = some rd) (y : Buffer) :
      EndAlike s s' i (.next (s.writeBack rd y)) (.next (s'.writeBack rd y))
  | keep {rd : Reg} (hd : i.dest = some rd) (same : s'.reg rd = s.reg rd) :
      EndAlike s s' i (.next (s.respond (plainResponse s.cfg))) (.next (s'.respond (plainResponse s'.cfg)))
  | scalar (hd : i.dest = none) (v : Scalar) :
      EndAlike s s' i (.next (s.returnScalar v)) (.next (s'.returnScalar v))
  | buffer (hd : i.dest = none) (y : Buffer) :
      EndAlike s s' i (.next (s.returnBuffer y)) (.next (s'.returnBuffer y))
  | outOfRange (hi : uncheckedAccess i = true) (hn : s.cfg.n ≤ amountOf s.cmd) :
      EndAlike s s' i (.fault .uncheckedIndex) (.fault .uncheckedIndex)

variable {i : Instr} {s s' t : State}

theorem AgreeOn.refl (i : Instr) (s : State) : AgreeOn i s s :=
  ⟨rfl, fun _ _ => rfl, fun _ => rfl, fun _ => rfl⟩

theorem AgreeOn.amount (h : AgreeOn i s s') (hi : i.readsOpnd = true) : amountOf s'.cmd = amountOf s.cmd :=
  congrArg BitVec.toNat (h.opnd hi)

/-- An in-place normalisation keeps the register or reverses it, alike in two states with the same straps and register. -/
theorem endAlike_normalise {rd : Reg} (hd : i.dest = some rd) (hc : s'.cfg = s.cfg) (hr : s'.reg rd = s.reg rd) (o : Endian) :
    EndAlike s s' i (.next (s.normalise rd o)) (.next (s'.normalise rd o)) := by
  by_cases ho : s.cfg.native = o
  · have ho' : s'.cfg.native = o := by rw [hc, ho]
    simp only [State.normalise, ho, ho', if_true]
    exact .keep hd hr
  · simp only [State.normalise, hc, ho, if_false, hr]
    exact .write hd _

/-- A command ends alike in two states that agree on what it names. -/
theorem exec_endAlike (h : AgreeOn i s s') : EndAlike s s' i (exec i s) (exec i s') := by
  cases i with
  | zero rd | fill rd imm8 =>
    simp only [exec_zero, exec_fill, h.cfg]
    exact .write rfl _
  | lda rd =>
    simp only [exec_lda, h.cfg, h.din rfl]
    exact .write rfl _
  | ldp rd =>
    simp only [exec_ldp, h.cfg, h.din rfl, h.amount rfl]
    exact .write rfl _
  | ldi rd sz | ldie rd sz ord =>
    simp only [exec_ldi, exec_ldie, h.cfg, h.opnd rfl]
    exact .write rfl _
  | mov rd rs1 | not rd rs1 | rev rd rs1 =>
    simp only [exec_mov, exec_not, exec_rev, h.cfg, h.reg rs1 (.head _)]
    exact .write rfl _
  | tole rd rs1 | tobe rd rs1 | tonet rd rs1 | fromle rd rs1 | frombe rd rs1 | fromnet rd rs1 | toend rd rs1 ord
  | fromend rd rs1 ord =>
    simp only [exec_tole, exec_tobe, exec_tonet, exec_fromle, exec_frombe, exec_fromnet, exec_toend, exec_fromend, h.cfg,
      h.reg rs1 (.head _)]
    exact .write rfl _
  | and rd rs1 rs2 | or rd rs1 rs2 | xor rd rs1 rs2 =>
    simp only [exec_and, exec_or, exec_xor, h.cfg, h.reg rs1 (.head _), h.reg rs2 (.tail _ (.head _))]
    exact .write rfl _
  | shl rd rs1 | shr rd rs1 | rol rd rs1 | ror rd rs1 =>
    simp only [exec_shl, exec_shr, exec_rol, exec_ror, h.cfg, h.amount rfl, h.reg rs1 (.head _)]
    exact .write rfl _
  | putb rd imm8 | setbit rd | clrbit rd | tglbit rd =>
    simp only [exec_putb, exec_setbit, exec_clrbit, exec_tglbit, h.cfg, h.amount rfl, h.reg rd (.head _)]
    exact .write rfl _
  | normle rd | normbe rd =>
    exact endAlike_normalise rfl h.cfg (h.reg rd (.head _)) _
  | getb rs1 | tstbit rs1 =>
    simp only [exec_getb, exec_tstbit, h.cfg, h.amount rfl, h.reg rs1 (.head _)]
    exact .scalar rfl _
  | popcnt rs1 | toint rs1 sz | tointe rs1 sz ord =>
    simp only [exec_popcnt, exec_toint, exec_tointe, h.cfg, h.reg rs1 (.head _)]
    exact .scalar rfl _
  | cmpeq rs1 rs2 | cmplt rs1 rs2 =>
    simp only [exec_cmpeq, exec_cmplt, h.cfg, h.reg rs1 (.head _), h.reg rs2 (.tail _ (.head _))]
    exact .scalar rfl _
  | rda rs1 =>
    simp only [exec_rda, h.reg rs1 (.head _)]
    exact .buffer rfl _
  | getbu rs1 =>
    simp only [exec_getbu, h.cfg, h.amount rfl, h.reg rs1 (.head _)]
    split
    · exact .scalar rfl _
    · exact .outOfRange rfl (by omega)
  | putbu rd imm8 =>
    simp only [exec_putbu, h.cfg, h.amount rfl, h.reg rd (.head _)]
    split
    · exact .write rfl _
    · exact .outOfRange rfl (by omega)

/-- The ways a command can end, from one state. -/
theorem exec_ends (i : Instr) (s : State) : EndAlike s s i (exec i s) (exec i s) := exec_endAlike (.refl i s)

/-- Of two results that end alike, where the first is a next state the second is one too, with the same destination and the same
responses. -/
theorem EndAlike.result {r r' : Result} (h : EndAlike s s' i r r') (hc : s'.cfg = s.cfg) (hs : s'.sent = s.sent)
    (hr : r = .next t) : ∃ t', r' = .next t' ∧ t'.sent = t.sent ∧ ∀ q, i.dest = some q → t'.reg q = t.reg q := by
  cases h with
  | write hd y =>
    cases hr
    refine ⟨_, rfl, by simp [hc, hs], fun q hq => ?_⟩
    obtain rfl : _ = q := Option.some.inj (hd.symm.trans hq)
    simp
  | keep hd same =>
    cases hr
    refine ⟨_, rfl, by simp [hc, hs], fun q hq => ?_⟩
    obtain rfl : _ = q := Option.some.inj (hd.symm.trans hq)
    simpa using same
  | scalar hd v =>
    cases hr
    exact ⟨_, rfl, by simp [hc, hs], by simp [hd]⟩
  | buffer hd y =>
    cases hr
    exact ⟨_, rfl, by simp [hs], by simp [hd]⟩
  | outOfRange => cases hr

/-- A command whose unchecked index, if it has one, is in range answers a next state with one more response, of status OK. -/
theorem exec_completes_ok (hi : uncheckedAccess i = true → amountOf s.cmd < s.cfg.n) :
    ∃ t r, exec i s = .next t ∧ t.sent = s.sent ++ [r] ∧ r.status = .ok := by
  have ends := exec_ends i s
  generalize exec i s = res at ends ⊢
  cases ends with
  | write _ y => exact ⟨_, _, rfl, State.writeBack_sent .., rfl⟩
  | keep => exact ⟨_, _, rfl, State.respond_sent .., rfl⟩
  | scalar _ v => exact ⟨_, _, rfl, State.returnScalar_sent .., rfl⟩
  | buffer _ y => exact ⟨_, _, rfl, State.returnBuffer_sent .., rfl⟩
  | outOfRange hu hn => exact absurd (hi hu) (Nat.not_lt.mpr hn)

/-- Settles O22: the command ends alike in two states that agree on what it names. -/
theorem resultDependsOnlyOnNamedSources : Obligations.ResultDependsOnlyOnNamedSources := by
  intro i s s' t hc hs hreg hopnd hdin ht
  have agree : AgreeOn i s s' := ⟨hc, hreg, hopnd, hdin⟩
  exact (exec_endAlike agree).result hc hs ht

/-- Settles O25: of the ways a command can end, only an unchecked index out of range answers no OK. -/
theorem everyLegalCommandCompletesOk : Obligations.EveryLegalCommandCompletesOk :=
  fun _ _ => exec_completes_ok

end Sys2Proof.Machine
end

section
/-! PROOF. The state (spec/10_state.md): what a command leaves unchanged, that what the host does afterwards has no part in what a
command does, the outputs, and the invariant: it holds at reset and every operation a step is made of keeps it. -/

namespace Sys2Proof.Machine

variable {i : Instr} {s t : State}

/-! ## The frame of a command -/

/-- Settles O21: of the ways a command can end, each leaves all but the destination and the responses as it was. -/
theorem commandsChangeOnlyTheirDestination : Obligations.CommandsChangeOnlyTheirDestination := by
  intro i s t h
  have ends := exec_ends i s
  rw [h] at ends
  cases ends with
  | write hd y =>
    refine ⟨fun r hr => State.writeBack_reg_other s y ?_, rfl, rfl, rfl, rfl, rfl, rfl⟩
    rintro rfl
    exact hr hd
  | keep | scalar | buffer => exact ⟨fun _ _ => rfl, rfl, rfl, rfl, rfl, rfl, rfl⟩

theorem exec_cfg (h : exec i s = .next t) : t.cfg = s.cfg := by
  obtain ⟨-, hcfg, -⟩ := commandsChangeOnlyTheirDestination i s t h
  exact hcfg

theorem exec_host (h : exec i s = .next t) : t.host = s.host := by
  obtain ⟨-, -, -, -, -, hhost, -⟩ := commandsChangeOnlyTheirDestination i s t h
  exact hhost

theorem runSampled_cfg (h : runSampled s = .next t) : t.cfg = s.cfg := by
  obtain ⟨-, rfl⟩ | ⟨-, -, rfl⟩ | ⟨-, i, -, hi⟩ := runSampled_cases h
  · rfl
  · rfl
  · exact exec_cfg hi

theorem runSampled_host (h : runSampled s = .next t) : t.host = s.host := by
  obtain ⟨-, rfl⟩ | ⟨-, -, rfl⟩ | ⟨-, i, -, hi⟩ := runSampled_cases h
  · rfl
  · rfl
  · exact exec_host hi

/-- The straps never change (spec/70_reset_and_hazards.md rule R330). -/
theorem step_cfg (h : step s = .next t) : t.cfg = s.cfg := by
  obtain ⟨-, rfl⟩ | ⟨rest, -, rfl⟩ | ⟨c, rest, -, hc⟩ := step_cases h
  · rfl
  · rfl
  · exact (runSampled_cfg hc).trans (State.accept_cfg s c rest)

/-! ## The outputs -/

theorem outputs_cfgN_toNat (s : State) : s.outputs.cfgN.toNat = s.cfg.n := Nat.mod_eq_of_lt s.cfg.n_lt

theorem ofBool_eq_one_iff (v : Bool) : BitVec.ofBool v = 1 ↔ v = true := BitVec.ofBool_eq_iff_eq (b' := true)

/-- There are two byte orders, so exactly one of the order outputs is 1 (spec/00_scope.md rule R7). -/
theorem ofBool_little_eq_not_big (o : Endian) : BitVec.ofBool (o == .little) = ~~~ BitVec.ofBool (o == .big) := by
  cases o <;> decide

/-- Settles O20: the constant outputs are functions of the straps, which no step changes. -/
theorem outputsShowStrapsAndFaultRecord : Obligations.OutputsShowStrapsAndFaultRecord := by
  refine ⟨fun s => ⟨outputs_cfgN_toNat s, ?_, ?_, ofBool_little_eq_not_big _, ofBool_eq_one_iff _, rfl, rfl⟩, ?_⟩
  · exact (ofBool_eq_one_iff _).trans beq_iff_eq
  · exact (ofBool_eq_one_iff _).trans beq_iff_eq
  · intro s t h
    have hcfg := step_cfg h
    simp [State.outputs, hcfg]

/-! ## What the host does afterwards -/

/-- A result with `rest` left for the host to do in its next state. -/
def resultWithHost (rest : List HostEvent) : Result → Result
  | .next t => .next { t with host := rest }
  | .fault r => .fault r
  | .refused r => .refused r

/-- A command does the same whatever the host does afterwards: it names nothing of the host's list. -/
theorem exec_withHost (i : Instr) (s : State) (rest : List HostEvent) :
    exec i { s with host := rest } = resultWithHost rest (exec i s) := by
  have agree : AgreeOn i s { s with host := rest } := ⟨rfl, fun _ _ => rfl, fun _ => rfl, fun _ => rfl⟩
  have ends := exec_endAlike agree
  generalize exec i s = res at ends ⊢
  generalize exec i { s with host := rest } = res' at ends ⊢
  cases ends <;> rfl

theorem runSampled_withHost (s : State) (rest : List HostEvent) :
    runSampled { s with host := rest } = resultWithHost rest (runSampled s) := by
  obtain hf | hf := Bool.eq_false_or_eq_true s.flt
  · rw [runSampled_faulted hf]
    exact runSampled_faulted (s := { s with host := rest }) hf
  · cases hd : decode s.cmd.ctl with
    | error e =>
      rw [runSampled_illegal hf hd]
      exact runSampled_illegal (s := { s with host := rest }) hf hd
    | ok i =>
      rw [runSampled_legal hf hd, ← exec_withHost]
      exact runSampled_legal (s := { s with host := rest }) hf hd

/-- Presenting a command is the step that takes it from the host's list, with nothing left to do afterwards. -/
theorem presentCommand_eq_step {c : Command} {rest : List HostEvent} (h : s.host = .command c :: rest) :
    presentCommand { s with host := [] } c = resultWithHost [] (step s) := by
  rw [step_command h]
  exact runSampled_withHost (s.accept c rest) []

/-- What follows a result: `f` on its next state, or nothing. -/
def resultThen (r : Result) (f : State → Result) : Result :=
  match r with
  | .next t => f t
  | .fault r => .fault r
  | .refused r => .refused r

theorem core_run_succ (k : Nat) (s : State) :
    Sys2Proof.core.run (k + 1) s = resultThen (step s) (Sys2Proof.core.run k) := by
  have hcore : Sys2Proof.core.step s = step s := rfl
  simp only [Host.Core.run, hcore]
  cases step s <;> rfl

theorem presentAll_cons (s : State) (c : Command) (cs : List Command) :
    presentAll s (c :: cs) = resultThen (presentCommand s c) fun t => presentAll t cs := rfl

/-- Settles O18, by induction on the commands: a step takes one from the list and leaves the others. -/
theorem steppingTheHostQueueIsTheRunOfItsCommands : Obligations.SteppingTheHostQueueIsTheRunOfItsCommands := by
  intro cs
  induction cs with
  | nil =>
    intro s hs
    have same : { s with host := [] } = s := congrArg (fun l => { s with host := l }) hs.symm
    exact congrArg Host.Outcome.next same.symm
  | cons c cs ih =>
    intro s hs
    rw [List.length_cons, core_run_succ, presentAll_cons, presentCommand_eq_step hs]
    cases hstep : step s with
    | next t =>
      have hhost : t.host = cs.map .command := runSampled_host ((step_command hs).symm.trans hstep)
      exact ih t hhost
    | fault r | refused r => rfl

/-! ## The invariant at reset -/

/-- Settles O14. -/
theorem resetStateIsAllZero : Obligations.ResetStateIsAllZero := by
  have zero (c : Config) (r : Reg) (i : Nat) : byteAt ((State.resetFor c).reg r) i = 0 := by simp
  have complete (c : Config) (r : Reg) : ((State.resetFor c).reg r).length = c.n := by simp
  exact ⟨fun c => ⟨fun r i _ => zero c r i, complete c, rfl, rfl, rfl, rfl⟩, fun r i _ => zero _ r i, complete _, rfl, rfl, rfl⟩

theorem resetFor_inv (c : Config) : (State.resetFor c).Inv where
  registers r := by simp
  record := ⟨rfl, rfl⟩
  responses := by simp [State.responsesComplete]

/-- Settles O15: the state the host runs from is the reset state of its straps. -/
theorem resetSatisfiesTheInvariant : Obligations.ResetSatisfiesTheInvariant :=
  ⟨resetFor_inv, resetFor_inv Config.straps⟩

/-! ## Each operation keeps the invariant -/

theorem State.Inv.accept (h : s.Inv) (c : Command) (rest : List HostEvent) : (s.accept c rest).Inv :=
  ⟨h.registers, h.record, h.responses⟩

theorem State.Inv.setReg (h : s.Inv) (rd : Reg) {y : Buffer} (hy : y.length = s.cfg.n) : (s.setReg rd y).Inv where
  registers r := by
    by_cases hr : r = rd
    · subst hr; simpa using hy
    · rw [State.setReg_reg_other s y hr]; exact h.registers r
  record := h.record
  responses := h.responses

theorem State.Inv.respond (h : s.Inv) {r : Response} (hlen : r.dout.length = s.cfg.n)
    (hempty : r.status ≠ .ok → r.res = 0 ∧ r.dout = zeroBuffer s.cfg.n) : (s.respond r).Inv where
  registers := h.registers
  record := h.record
  responses q hq := by
    obtain hq | hq := List.mem_append.mp hq
    · exact h.responses q hq
    · obtain rfl := List.mem_singleton.mp hq
      exact ⟨hlen, hempty⟩

theorem State.Inv.respondPlain (h : s.Inv) : (s.respond (plainResponse s.cfg)).Inv :=
  h.respond (length_zeroBuffer _) fun hne => absurd rfl hne

theorem State.Inv.writeBack (h : s.Inv) (rd : Reg) {y : Buffer} (hy : y.length = s.cfg.n) : (s.writeBack rd y).Inv :=
  (h.setReg rd hy).respondPlain

theorem State.Inv.returnScalar (h : s.Inv) (v : Scalar) : (s.returnScalar v).Inv :=
  h.respond (length_zeroBuffer _) fun hne => absurd rfl hne

theorem State.Inv.returnBuffer (h : s.Inv) {y : Buffer} (hy : y.length = s.cfg.n) : (s.returnBuffer y).Inv :=
  h.respond hy fun hne => absurd rfl hne

theorem State.Inv.normalise (h : s.Inv) (rd : Reg) (o : Endian) : (s.normalise rd o).Inv := by
  unfold State.normalise
  split
  · exact h.respondPlain
  · exact h.writeBack rd (length_rev _ _)

theorem State.Inv.reject (h : s.Inv) : s.reject.Inv :=
  h.respond (length_zeroBuffer _) fun _ => ⟨rfl, rfl⟩

theorem State.Inv.raiseIllegal (h : s.Inv) {ctl : CtlWord} (hd : ∃ e, decode ctl = .error e) : (s.raiseIllegal ctl).Inv where
  registers := h.registers
  record := ⟨rfl, hd⟩
  responses :=
    (h.respond (r := { status := .illegal, res := 0, dout := zeroBuffer s.cfg.n }) (length_zeroBuffer _)
      fun _ => ⟨rfl, rfl⟩).responses

theorem State.Inv.applyReset (h : s.Inv) (rest : List HostEvent) : ({ s.applyReset with host := rest } : State).Inv where
  registers r := (congrArg List.length (State.applyReset_reg s r)).trans (length_zeroBuffer _)
  record := ⟨rfl, rfl⟩
  responses := h.responses

/-! ## Every command and every step keeps the invariant -/

/-- If the result is a next state, it satisfies the invariant. -/
def AnswersInv (r : Result) : Prop := ∀ t, r = .next t → t.Inv

theorem answersInv_next (h : t.Inv) : AnswersInv (.next t) := fun _ e => Host.Outcome.next.inj e ▸ h

theorem answersInv_fault (f : Fault) : AnswersInv (.fault f) := fun _ e => nomatch e

/-- The buffer a command writes or answers has `N` bytes: it is built afresh (spec/70_reset_and_hazards.md rule R340), or it is a
register kept or changed in place. -/
theorem exec_answersInv (i : Instr) (hs : s.Inv) : AnswersInv (exec i s) := by
  cases i with
  | zero rd | fill rd imm8 | lda rd | ldp rd | ldi rd sz | and rd rs1 rs2 | or rd rs1 rs2 | xor rd rs1 rs2 | not rd rs1
  | rol rd rs1 | ror rd rs1 | rev rd rs1 =>
    exact answersInv_next (hs.writeBack rd (by simp))
  | mov rd rs1 => exact answersInv_next (hs.writeBack rd (hs.registers rs1))
  | shl rd rs1 => exact answersInv_next (hs.writeBack rd (length_shl _ (hs.registers rs1)))
  | shr rd rs1 => exact answersInv_next (hs.writeBack rd (length_shr _ (hs.registers rs1)))
  | putb rd imm8 | setbit rd | clrbit rd | tglbit rd =>
    exact answersInv_next (hs.writeBack rd (by simpa using hs.registers rd))
  | tole rd rs1 | tobe rd rs1 | tonet rd rs1 | fromle rd rs1 | frombe rd rs1 | fromnet rd rs1 | toend rd rs1 ord
  | fromend rd rs1 ord =>
    exact answersInv_next (hs.writeBack rd (length_conv _ (hs.registers rs1)))
  | ldie rd sz ord => exact answersInv_next (hs.writeBack rd (length_conv _ (length_fromInt _ _ _)))
  | normle rd | normbe rd => exact answersInv_next (hs.normalise rd _)
  | getb rs1 | tstbit rs1 | popcnt rs1 | toint rs1 sz | tointe rs1 sz ord | cmpeq rs1 rs2 | cmplt rs1 rs2 =>
    exact answersInv_next (hs.returnScalar _)
  | rda rs1 => exact answersInv_next (hs.returnBuffer (hs.registers rs1))
  | getbu rs1 =>
    rw [exec_getbu]
    split
    · exact answersInv_next (hs.returnScalar _)
    · exact answersInv_fault _
  | putbu rd imm8 =>
    rw [exec_putbu]
    split
    · exact answersInv_next (hs.writeBack rd (by simpa using hs.registers rd))
    · exact answersInv_fault _

theorem runSampled_inv (hs : s.Inv) (h : runSampled s = .next t) : t.Inv := by
  obtain ⟨-, rfl⟩ | ⟨-, hd, rfl⟩ | ⟨-, i, -, hi⟩ := runSampled_cases h
  · exact hs.reject
  · exact hs.raiseIllegal hd
  · exact exec_answersInv i hs t hi

/-- Settles O16: a step is idle, a reset, or one sampled command. -/
theorem everyStepKeepsTheInvariant : Obligations.EveryStepKeepsTheInvariant := by
  intro s t hs h
  obtain ⟨-, rfl⟩ | ⟨rest, -, rfl⟩ | ⟨c, rest, -, hc⟩ := step_cases h
  · exact hs
  · exact hs.applyReset rest
  · exact runSampled_inv (hs.accept c rest) hc

end Sys2Proof.Machine
end

section
/-! PROOF. Ports, mixed widths and reads without side effects (spec/20_memory.md): a buffer built from a number has that number's
value, so every command that reads a register at some width reads digits of one value; and the commands that only read, or that do
not name the host's byte order, said for whole states. -/

namespace Sys2Proof.Machine

variable {i : Instr} {s s' t : State}

/-! ## A number as bytes (rules R42, R43) -/

/-- Bit `p` of a number is bit `p mod 8` of its byte `p div 8` (spec/00_scope.md rule R14). -/
theorem getLsbD_byte_of_number (v p : Nat) : (BitVec.ofNat 8 (v / 2 ^ (8 * (p / 8)))).getLsbD (p % 8) = v.testBit p := by
  have hp : p % 8 + 8 * (p / 8) = p := Nat.mod_add_div p 8
  rw [BitVec.getLsbD_ofNat, Nat.testBit_div_two_pow, hp]
  simp [Nat.mod_lt]

/-- `V` after `ofV` drops the bits the buffer has no room for (spec/00_scope.md section 7.2). -/
theorem value_ofValue (n v : Nat) : value (ofValue n v) = v % 2 ^ (8 * n) := by
  refine Nat.eq_of_testBit_eq fun p => ?_
  rw [value_testBit, Nat.testBit_mod_two_pow]
  by_cases hp : p < 8 * n
  · rw [ofValue, bitAt_build _ hp, getLsbD_byte_of_number]
    simp [hp]
  · rw [bitAt_of_length_le (by simpa using hp)]
    simp [hp]

/-- `ofV` after `V` is the buffer itself (spec/00_scope.md section 7.2). -/
theorem ofValue_value {n : Nat} {x : Buffer} (hx : x.length = n) : ofValue n (value x) = x := by
  refine value_injective (by simp [hx]) ?_
  rw [value_ofValue, ← hx, Nat.mod_eq_of_lt (value_lt x)]

/-- An integer written into a buffer is there modulo its width (rule R105). -/
theorem value_fromInt (n sz : Nat) (v : Scalar) : value (fromInt n sz v) = v.toNat % 2 ^ (8 * min sz n) := by
  refine Nat.eq_of_testBit_eq fun p => ?_
  rw [value_testBit, Nat.testBit_mod_two_pow]
  by_cases hp : p < 8 * n
  · rw [fromInt, bitAt_build _ hp]
    by_cases hsz : p < 8 * min sz n
    · have hbyte : p / 8 < min sz n := by omega
      simp only [hbyte, if_true, scalarByte_eq, getLsbD_byte_of_number, hsz, decide_true, Bool.true_and]
    · have hbyte : ¬ p / 8 < min sz n := by omega
      simp [hbyte, hsz]
  · have hsz : ¬ p < 8 * min sz n := by omega
    rw [bitAt_of_length_le (by simpa using hp)]
    simp [hsz]

/-- Settles O57. -/
theorem portLanesAreTheBytesOfTheNumber : Obligations.PortLanesAreTheBytesOfTheNumber := by
  refine ⟨fun n bits i hi => ?_, fun n bits hbits => ?_, fun n x hx => ⟨ofValue_value hx, ?_⟩⟩
  · rw [lanesOfBits, byteAt_ofValue hi, BitVec.toNat_ofNat]
  · rw [bitsOfLanes, lanesOfBits, value_ofValue, Nat.mod_eq_of_lt hbits]
  · rw [← hx]
    exact value_lt x

/-! ## What the reads of a register say about its value (rule R44) -/

theorem bitAt_toNat (x : Buffer) (p : Nat) : (bitAt x p).toNat = value x / 2 ^ p % 2 := by
  rw [← value_testBit, Nat.toNat_testBit]

theorem byteAt_toNat (x : Buffer) (i : Nat) : (byteAt x i).toNat = value x / 2 ^ (8 * i) % 2 ^ 8 := by
  refine Nat.eq_of_testBit_eq fun j => ?_
  rw [Nat.testBit_mod_two_pow, Nat.testBit_div_two_pow, value_testBit, BitVec.testBit_toNat]
  by_cases hj : j < 8
  · rw [Nat.add_comm j, bitAt_eq_byteAt x i j hj]
    simp [hj]
  · rw [BitVec.getLsbD_of_ge _ _ (Nat.not_lt.mp hj)]
    simp [hj]

/-- The low `m` bytes put together, each at its place, are the value modulo `2^(8*m)`. -/
theorem foldl_bytes_eq_value_mod (x : Buffer) (m : Nat) :
    (List.range m).foldl (fun v i => v ||| ((byteAt x i).toNat <<< (8 * i))) 0 = value x % 2 ^ (8 * m) := by
  induction m with
  | zero => simp [Nat.mod_one]
  | succ m ih =>
    have hlow : value x % 2 ^ (8 * m) < 2 ^ (8 * m) := Nat.mod_lt _ (by positivity)
    rw [List.range_succ, List.foldl_append, ih, List.foldl_cons, List.foldl_nil, Nat.lor_comm,
      ← Nat.shiftLeft_add_eq_or_of_lt hlow, byteAt_toNat, Nat.shiftLeft_eq, Nat.mul_succ, Nat.pow_add, Nat.mod_mul,
      Nat.add_comm, Nat.mul_comm (2 ^ (8 * m))]

/-- The integer read back is the value modulo the width read (rule R210). -/
theorem toInt_toNat (n : Nat) (sz : Width) (x : Buffer) :
    (toInt n sz.bytes x).toNat = value x % 2 ^ (8 * min sz.bytes n) := by
  have hsz : sz.bytes ≤ 8 := by cases sz <;> decide
  have hfits : 2 ^ (8 * min sz.bytes n) ≤ 2 ^ 64 := Nat.pow_le_pow_right (by decide) (by omega)
  have hpos : 0 < 2 ^ (8 * min sz.bytes n) := by positivity
  rw [toInt, foldl_bytes_eq_value_mod, BitVec.toNat_ofNat, Nat.mod_eq_of_lt ((Nat.mod_lt _ hpos).trans_le hfits)]

/-- A command that returns a scalar gives its number. -/
theorem givesScalar_of_returnScalar {v : Scalar} (h : exec i s = .next (s.returnScalar v)) : GivesScalar i s v.toNat :=
  ⟨_, v, h, rfl, rfl⟩

theorem givesScalar_getb (r : Reg) (h : amountOf s.cmd < s.cfg.n) :
    GivesScalar (.getb r) s (value (s.reg r) / 2 ^ (8 * amountOf s.cmd) % 2 ^ 8) := by
  have hread := givesScalar_of_returnScalar (exec_getb s r)
  rwa [clampIndex_of_lt h, BitVec.toNat_setWidth_of_le (by decide), byteAt_toNat] at hread

theorem givesScalar_tstbit (r : Reg) (h : amountOf s.cmd < s.cfg.w) :
    GivesScalar (.tstbit r) s (value (s.reg r) / 2 ^ amountOf s.cmd % 2) := by
  have hread := givesScalar_of_returnScalar (exec_tstbit s r)
  rwa [testBit_in_range _ h, truth_toNat, bitAt_toNat] at hread

theorem givesScalar_toint (r : Reg) (sz : Width) :
    GivesScalar (.toint r sz) s (value (s.reg r) % 2 ^ (8 * min sz.bytes s.cfg.n)) := by
  have hread := givesScalar_of_returnScalar (exec_toint s r sz)
  rwa [toInt_toNat] at hread

/-- The state with another scalar operand on the command port. -/
def State.withOpnd (s : State) (k : Nat) : State := { s with cmd := { s.cmd with opnd := BitVec.ofNat 64 k } }

@[simp] theorem State.withOpnd_cfg (s : State) (k : Nat) : (s.withOpnd k).cfg = s.cfg := rfl
@[simp] theorem State.withOpnd_reg (s : State) (k : Nat) (r : Reg) : (s.withOpnd k).reg r = s.reg r := rfl

theorem State.amountOf_withOpnd {k : Nat} (h : k < 2 ^ 64) : amountOf (s.withOpnd k).cmd = k := Nat.mod_eq_of_lt h

/-- LDI writes the integer modulo the width written (rule R105). -/
theorem givesValue_ldi (s : State) (rd : Reg) (sz : Width) :
    GivesValue (.ldi rd sz) s rd (s.cmd.opnd.toNat % 2 ^ (8 * min sz.bytes s.cfg.n)) := by
  refine ⟨_, exec_ldi s rd sz, ⟨rfl, rfl, rfl, rfl, rfl, rfl, rfl, fun r hr => State.writeBack_reg_other s _ hr⟩, ?_, ?_⟩
  · rw [State.writeBack_reg_self, length_fromInt]
  · rw [State.writeBack_reg_self, value_fromInt]

/-- The `d` binary digits from `a` up are those of the number modulo `2^m`, if they lie below `m`. -/
theorem digits_mod_two_pow {a d m : Nat} (v : Nat) (h : a + d ≤ m) : v % 2 ^ m / 2 ^ a % 2 ^ d = v / 2 ^ a % 2 ^ d := by
  refine Nat.eq_of_testBit_eq fun p => ?_
  simp only [Nat.testBit_mod_two_pow, Nat.testBit_div_two_pow]
  by_cases hp : p < d
  · have hm : p + a < m := by omega
    simp [hm]
  · simp [hp]

/-- Settles O58: LDI.4 writes the integer modulo `2^32`, and each read takes digits of that value which lie below bit 32. -/
theorem registerReadsConsistentlyAtEveryWidth : Obligations.RegisterReadsConsistentlyAtEveryWidth := by
  intro s rd hn
  obtain ⟨t, hldi, ⟨hcfg, -⟩, -, hvalue⟩ := givesValue_ldi s rd .w4
  rw [Width.bytes, Nat.min_eq_left hn] at hvalue
  refine ⟨t, hldi, fun k hk => ?_, fun p hp => ?_, ?_⟩
  · have hopnd : amountOf (t.withOpnd k).cmd = k := State.amountOf_withOpnd (by omega)
    have hread := givesScalar_getb (s := t.withOpnd k) rd (by rw [hopnd, State.withOpnd_cfg, hcfg]; omega)
    rwa [hopnd, State.withOpnd_reg, hvalue, digits_mod_two_pow _ (by omega)] at hread
  · have hopnd : amountOf (t.withOpnd p).cmd = p := State.amountOf_withOpnd (by omega)
    have hread := givesScalar_tstbit (s := t.withOpnd p) rd (by rw [hopnd, State.withOpnd_cfg, hcfg, Config.w]; omega)
    rwa [hopnd, State.withOpnd_reg, hvalue, ← Nat.pow_one 2, digits_mod_two_pow _ (by omega)] at hread
  · have hread := givesScalar_toint (s := t) rd .w2
    rwa [hcfg, Width.bytes, Nat.min_eq_left (by omega), hvalue, Nat.mod_mod_of_dvd _ (Nat.pow_dvd_pow 2 (by decide))] at hread

/-! ## Reads have no side effects (rule R49) -/

/-- A command with no destination ends alike in two states that agree on what it names by giving both one response. -/
theorem EndAlike.respond_of_dest_none {r r' : Result} (h : EndAlike s s' i r r') (hc : s'.cfg = s.cfg)
    (hd : i.dest = none) (hr : r = .next t) : ∃ a, t = s.respond a ∧ r' = .next (s'.respond a) := by
  cases h with
  | write hw | keep hw => exact nomatch hd.symm.trans hw
  | scalar _ v =>
    cases hr
    exact ⟨scalarResponse s.cfg v, rfl, by rw [State.returnScalar, hc]⟩
  | buffer _ y =>
    cases hr
    exact ⟨bufferResponse y, rfl, rfl⟩
  | outOfRange => cases hr

/-- A command with no destination leaves all that it names as it was. -/
theorem agreeOn_of_dest_none (hd : i.dest = none) (h : exec i s = .next t) : AgreeOn i s t := by
  obtain ⟨hreg, hcfg, -, -, -, -, hcmd⟩ := commandsChangeOnlyTheirDestination i s t h
  exact ⟨hcfg, fun r _ => hreg r (by simp [hd]), fun _ => by rw [hcmd], fun _ => by rw [hcmd]⟩

/-- Settles O24: the state after the command agrees with the one before on all that the command names. -/
theorem readingCommandsChangeNothingAndRepeat : Obligations.ReadingCommandsChangeNothingAndRepeat := by
  intro i s t hd h
  have agree : AgreeOn i s t := agreeOn_of_dest_none hd h
  obtain ⟨r, ht, hagain⟩ := (exec_endAlike agree).respond_of_dest_none agree.cfg hd h
  exact ⟨r, ht, hagain⟩

/-! ## The host's byte order (rule R45) -/

/-- The state of the engine with the other strap. -/
def State.withNative (s : State) (o : Endian) : State := { s with cfg := { s.cfg with native := o } }

@[simp] theorem State.withNative_n (s : State) (o : Endian) : (s.withNative o).cfg.n = s.cfg.n := rfl
@[simp] theorem State.withNative_cmd (s : State) (o : Endian) : (s.withNative o).cmd = s.cmd := rfl

/-- A result with the strap set in its next state. -/
def resultWithNative (o : Endian) : Result → Result
  | .next t => .next (t.withNative o)
  | .fault r => .fault r
  | .refused r => .refused r

/-- `N` is not the host's order, nor is anything else a command outside the conversions reads of the state. -/
theorem exec_withNative (o : Endian) (hi : i.readsNative = false) :
    exec i (s.withNative o) = resultWithNative o (exec i s) := by
  cases i with
  | zero rd | fill rd imm8 | lda rd | ldp rd | ldi rd sz | mov rd rs1 | putb rd imm8 | and rd rs1 rs2 | or rd rs1 rs2
  | xor rd rs1 rs2 | not rd rs1 | shl rd rs1 | shr rd rs1 | rol rd rs1 | ror rd rs1 | setbit rd | clrbit rd | tglbit rd
  | rev rd rs1 => rfl
  | getb rs1 | rda rs1 | cmpeq rs1 rs2 | cmplt rs1 rs2 | tstbit rs1 | popcnt rs1 | toint rs1 sz => rfl
  | getbu rs1 =>
    by_cases h : amountOf s.cmd < s.cfg.n
    all_goals
      simp only [exec_getbu, State.withNative_n, State.withNative_cmd, h, if_true, if_false]
      rfl
  | putbu rd imm8 =>
    by_cases h : amountOf s.cmd < s.cfg.n
    all_goals
      simp only [exec_putbu, State.withNative_n, State.withNative_cmd, h, if_true, if_false]
      rfl
  | tole | tobe | tonet | fromle | frombe | fromnet | toend | fromend | normle | normbe | tointe | ldie => exact nomatch hi

/-- Settles O23. -/
theorem onlyConversionsReadTheHostOrder : Obligations.OnlyConversionsReadTheHostOrder := by
  intro i s t o hi h
  have hnative := exec_withNative (s := s) o hi
  rwa [h] at hnative

end Sys2Proof.Machine
end

section
/-! PROOF. The decoder and the opcode map (spec/30_encoding.md rules R68, R69, R78): a format as its live fields, the mask it makes,
and format by format, then opcode by opcode, that the decoder answers a command exactly on the words the row of the map selects. -/

namespace Sys2Proof

/-! ## A format and its row of the map -/

/-- The mask of a field: nothing of a live field is compared, all of one that is not. -/
def deadMask (n : Nat) (live : Bool) : BitVec n := if live then 0 else BitVec.allOnes n

theorem and_deadMask_eq_zero_iff {n : Nat} (x : BitVec n) (live : Bool) :
    x &&& deadMask n live = 0 ↔ (live = false → x = 0) := by
  cases live <;> simp [deadMask]

/-- A format as the set of its live fields (spec/30_encoding.md rule R78). -/
structure Format where
  rd : Bool := false
  rs1 : Bool := false
  rs2 : Bool := false
  szc : Bool := false
  ordc : Bool := false
  imm8 : Bool := false

/-- The mask of a format: every opcode bit and every bit of every field that is not live. -/
def Format.mask (F : Format) : Fields :=
  ⟨BitVec.allOnes 8, deadMask 4 F.rd, deadMask 4 F.rs1, deadMask 4 F.rs2, deadMask 2 F.szc, deadMask 2 F.ordc,
    deadMask 8 F.imm8⟩

/-- The row of the opcode map for a command of this format. -/
def Format.row (F : Format) (m : String) (op : BitVec 8) : OpcodeRow :=
  ⟨m, op, Fields.toWord { Fields.blank with opcode := op }, F.mask.toWord, F.ordc⟩

/-- What a format asks of the fields: zero where it is not live, and no reserved order code where it is. -/
structure Format.Legal (F : Format) (f : Fields) : Prop where
  rd : F.rd = false → f.rd = 0
  rs1 : F.rs1 = false → f.rs1 = 0
  rs2 : F.rs2 = false → f.rs2 = 0
  szc : F.szc = false → f.szc = 0
  ordc : F.ordc = false → f.ordc = 0
  imm8 : F.imm8 = false → f.imm8 = 0
  order : F.ordc = true → f.ordc ≠ 3#2

theorem Format.legal_iff {F : Format} {f : Fields} :
    F.Legal f ↔ (F.rd = false → f.rd = 0) ∧ (F.rs1 = false → f.rs1 = 0) ∧ (F.rs2 = false → f.rs2 = 0) ∧
      (F.szc = false → f.szc = 0) ∧ (F.ordc = false → f.ordc = 0) ∧ (F.imm8 = false → f.imm8 = 0) ∧
      (F.ordc = true → f.ordc ≠ 3#2) :=
  ⟨fun ⟨a, b, c, d, e, g, h⟩ => ⟨a, b, c, d, e, g, h⟩, fun ⟨a, b, c, d, e, g, h⟩ => ⟨a, b, c, d, e, g, h⟩⟩

/-- Code 3 is the reserved one (rule R67). -/
theorem OrderName.ofCode_eq_none_iff (v : BitVec 2) : OrderName.ofCode v = none ↔ v = 3#2 := by revert v; decide

theorem Fields.toWord_inj {f g : Fields} : f.toWord = g.toWord ↔ f = g :=
  (Function.LeftInverse.injective Fields.ofWord_toWord).eq_iff

/-- A row selects the words its format allows: what the mask compares is what has to be zero (rule R69). -/
theorem Format.row_selects_iff (F : Format) (m : String) {op : BitVec 8} {f : Fields} (hop : f.opcode = op) :
    (F.row m op).selects f.toWord = true ↔ F.Legal f := by
  have hord : f.toWord.extractLsb' 22 2 = f.ordc := congrArg Fields.ordc f.ofWord_toWord
  simp only [OpcodeRow.selects, Format.row, hord, Format.mask, Fields.and_toWord, Fields.toWord_inj, Fields.blank,
    Bool.and_eq_true, beq_iff_eq, Fields.mk.injEq, and_deadMask_eq_zero_iff, BitVec.and_allOnes, hop, true_and,
    Bool.not_eq_true', Bool.and_eq_false_imp, beq_eq_false_iff_ne]
  constructor
  · rintro ⟨⟨hrd, hrs1, hrs2, hszc, hordc, himm⟩, horder⟩
    exact ⟨hrd, hrs1, hrs2, hszc, hordc, himm, horder⟩
  · rintro ⟨hrd, hrs1, hrs2, hszc, hordc, himm, horder⟩
    exact ⟨⟨hrd, hrs1, hrs2, hszc, hordc, himm⟩, horder⟩

/-- The fields with zero in every field that is not live. -/
def Format.restrict (F : Format) (f : Fields) : Fields :=
  ⟨f.opcode, if F.rd then f.rd else 0, if F.rs1 then f.rs1 else 0, if F.rs2 then f.rs2 else 0,
    if F.szc then f.szc else 0, if F.ordc then f.ordc else 0, if F.imm8 then f.imm8 else 0⟩

theorem Format.Legal.restrict_eq {F : Format} {f : Fields} (h : F.Legal f) : F.restrict f = f := by
  have keep {n : Nat} {live : Bool} {x : BitVec n} (h : live = false → x = 0) : (if live then x else 0) = x := by
    cases live
    · exact (h rfl).symm
    · rfl
  rw [Format.restrict, keep h.rd, keep h.rs1, keep h.rs2, keep h.szc, keep h.ordc, keep h.imm8]

/-! ## What the decoder answers, for a format -/

/-- What the decoder may answer on a word with the opcode of `row`: when the row selects the word, the command of the row's name
whose word it is; when it does not, that the word is illegal. -/
inductive Answers (row : OpcodeRow) (w : CtlWord) : Except Illegal Instr → Prop
  | ok {i : Instr} (selected : row.selects w = true) (word : encode i = w) (name : i.mnemonic = row.mnemonic) :
      Answers row w (.ok i)
  | error {e : Illegal} (refused : row.selects w = false) : Answers row w (.error e)

theorem Answers.ok_of_selects {row : OpcodeRow} {w : CtlWord} {r : Except Illegal Instr} (h : Answers row w r)
    (hs : row.selects w = true) : ∃ i, r = .ok i ∧ i.mnemonic = row.mnemonic := by
  cases h with
  | ok _ _ name => exact ⟨_, rfl, name⟩
  | error refused => exact absurd hs (Bool.eq_false_iff.mp refused)

theorem Answers.error_iff {row : OpcodeRow} {w : CtlWord} {r : Except Illegal Instr} (h : Answers row w r) :
    (∃ e, r = .error e) ↔ row.selects w = false := by
  cases h with
  | ok selected => simp [selected]
  | error refused => simp [refused]

/-- On every word with the row's opcode the decoder agrees with the row. -/
def DecoderFollows (row : OpcodeRow) : Prop := ∀ f, f.opcode = row.opcode → Answers row f.toWord (decodeFields f)

/-- Words with opcode `op` are decoded by `g`. -/
def DecodesBy (op : BitVec 8) (g : Fields → Except Illegal Instr) : Prop := ∀ f, f.opcode = op → decodeFields f = g f

/-- Command `i` has the name `m` and the fields `f`. -/
def HasFields (m : String) (i : Instr) (f : Fields) : Prop := i.mnemonic = m ∧ fieldsOf i = f

section

variable {F : Format} {m : String} {op : BitVec 8} {f : Fields} {i : Instr}

theorem Format.answers_ok (hop : f.opcode = op) (hl : F.Legal f) (hi : HasFields m i (F.restrict f)) :
    Answers (F.row m op) f.toWord (.ok i) := by
  obtain ⟨hm, hf⟩ := hi
  exact .ok ((F.row_selects_iff m hop).mpr hl) (congrArg Fields.toWord (hf.trans hl.restrict_eq)) hm

theorem Format.answers_error {e : Illegal} (hop : f.opcode = op) (hl : ¬ F.Legal f) :
    Answers (F.row m op) f.toWord (.error e) :=
  .error (Bool.eq_false_iff.mpr fun h => hl ((F.row_selects_iff m hop).mp h))

/-- The decoder's test in a format without `ordc`. -/
theorem Format.answers_ite {c : Prop} [Decidable c] {e : Illegal} (hop : f.opcode = op) (hc : c ↔ F.Legal f)
    (hi : HasFields m i (F.restrict f)) : Answers (F.row m op) f.toWord (if c then .ok i else .error e) := by
  split
  case isTrue h => exact answers_ok hop (hc.mp h) hi
  case isFalse h => exact answers_error hop (mt hc.mpr h)

/-- The decoder's two tests in a format with `ordc`. -/
theorem Format.answers_order {c : Prop} [Decidable c] {k : OrderName → Instr} {e e' : Illegal} (hop : f.opcode = op)
    (hc : c ∧ f.ordc ≠ 3#2 ↔ F.Legal f) (hk : ∀ o : OrderName, o.code = f.ordc → HasFields m (k o) (F.restrict f)) :
    Answers (F.row m op) f.toWord
      (if c then match OrderName.ofCode f.ordc with | some o => .ok (k o) | none => .error e else .error e') := by
  split
  case isTrue h =>
    cases ho : OrderName.ofCode f.ordc with
    | none =>
      refine answers_error hop fun hl => ?_
      obtain ⟨-, hne⟩ := hc.mpr hl
      exact hne ((OrderName.ofCode_eq_none_iff _).mp ho)
    | some o =>
      have hcode := OrderName.code_ofCode ho
      exact answers_ok hop (hc.mp ⟨h, hcode ▸ OrderName.code_ne_reserved o⟩) (hk o hcode)
  case isFalse h =>
    refine answers_error hop fun hl => ?_
    obtain ⟨htest, -⟩ := hc.mpr hl
    exact h htest

/-! ## The decoder of each format -/

/-! The eleven formats of rule R78, by their live fields. -/

abbrev Format.D : Format := { rd := true }
abbrev Format.DB : Format := { rd := true, imm8 := true }
abbrev Format.DZ : Format := { rd := true, szc := true }
abbrev Format.DS : Format := { rd := true, rs1 := true }
abbrev Format.DST : Format := { rd := true, rs1 := true, rs2 := true }
abbrev Format.S : Format := { rs1 := true }
abbrev Format.ST : Format := { rs1 := true, rs2 := true }
abbrev Format.SZ : Format := { rs1 := true, szc := true }
abbrev Format.DSE : Format := { rd := true, rs1 := true, ordc := true }
abbrev Format.SZE : Format := { rs1 := true, szc := true, ordc := true }
abbrev Format.DZE : Format := { rd := true, szc := true, ordc := true }

theorem decoderFollows_formatD (k : Reg → Instr)
    (hdec : DecodesBy op (·.formatD k) := by rintro ⟨⟩ rfl; rfl)
    (hk : ∀ rd, HasFields m (k rd) { Fields.blank with opcode := op, rd := Reg.code rd } := by
      intros; exact ⟨rfl, rfl⟩) :
    DecoderFollows (Format.D.row m op) := by
  rintro f rfl
  rw [hdec f rfl]
  exact Format.answers_ite rfl (by simp [Format.legal_iff]) (hk _)

theorem decoderFollows_formatDB (k : Reg → Byte → Instr)
    (hdec : DecodesBy op (·.formatDB k) := by rintro ⟨⟩ rfl; rfl)
    (hk : ∀ rd imm8, HasFields m (k rd imm8) { Fields.blank with opcode := op, rd := Reg.code rd, imm8 := imm8 } := by
      intros; exact ⟨rfl, rfl⟩) :
    DecoderFollows (Format.DB.row m op) := by
  rintro f rfl
  rw [hdec f rfl]
  exact Format.answers_ite rfl (by simp [Format.legal_iff]) (hk _ _)

theorem decoderFollows_formatDZ (k : Reg → Width → Instr)
    (hdec : DecodesBy op (·.formatDZ k) := by rintro ⟨⟩ rfl; rfl)
    (hk : ∀ rd sz, HasFields m (k rd sz) { Fields.blank with opcode := op, rd := Reg.code rd, szc := Width.code sz } := by
      intros; exact ⟨rfl, rfl⟩) :
    DecoderFollows (Format.DZ.row m op) := by
  rintro f rfl
  rw [hdec f rfl]
  refine Format.answers_ite rfl (by simp [Format.legal_iff]) ?_
  have hkf := hk f.rdReg (.ofCode f.szc)
  rwa [Width.code_ofCode] at hkf

theorem decoderFollows_formatDS (k : Reg → Reg → Instr)
    (hdec : DecodesBy op (·.formatDS k) := by rintro ⟨⟩ rfl; rfl)
    (hk : ∀ rd rs1, HasFields m (k rd rs1) { Fields.blank with opcode := op, rd := Reg.code rd, rs1 := Reg.code rs1 } := by
      intros; exact ⟨rfl, rfl⟩) :
    DecoderFollows (Format.DS.row m op) := by
  rintro f rfl
  rw [hdec f rfl]
  exact Format.answers_ite rfl (by simp [Format.legal_iff]) (hk _ _)

theorem decoderFollows_formatDST (k : Reg → Reg → Reg → Instr)
    (hdec : DecodesBy op (·.formatDST k) := by rintro ⟨⟩ rfl; rfl)
    (hk : ∀ rd rs1 rs2, HasFields m (k rd rs1 rs2)
      { Fields.blank with opcode := op, rd := Reg.code rd, rs1 := Reg.code rs1, rs2 := Reg.code rs2 } := by
      intros; exact ⟨rfl, rfl⟩) :
    DecoderFollows (Format.DST.row m op) := by
  rintro f rfl
  rw [hdec f rfl]
  exact Format.answers_ite rfl (by simp [Format.legal_iff]) (hk _ _ _)

theorem decoderFollows_formatS (k : Reg → Instr)
    (hdec : DecodesBy op (·.formatS k) := by rintro ⟨⟩ rfl; rfl)
    (hk : ∀ rs1, HasFields m (k rs1) { Fields.blank with opcode := op, rs1 := Reg.code rs1 } := by
      intros; exact ⟨rfl, rfl⟩) :
    DecoderFollows (Format.S.row m op) := by
  rintro f rfl
  rw [hdec f rfl]
  exact Format.answers_ite rfl (by simp [Format.legal_iff]) (hk _)

theorem decoderFollows_formatST (k : Reg → Reg → Instr)
    (hdec : DecodesBy op (·.formatST k) := by rintro ⟨⟩ rfl; rfl)
    (hk : ∀ rs1 rs2, HasFields m (k rs1 rs2) { Fields.blank with opcode := op, rs1 := Reg.code rs1, rs2 := Reg.code rs2 } := by
      intros; exact ⟨rfl, rfl⟩) :
    DecoderFollows (Format.ST.row m op) := by
  rintro f rfl
  rw [hdec f rfl]
  exact Format.answers_ite rfl (by simp [Format.legal_iff]) (hk _ _)

theorem decoderFollows_formatSZ (k : Reg → Width → Instr)
    (hdec : DecodesBy op (·.formatSZ k) := by rintro ⟨⟩ rfl; rfl)
    (hk : ∀ rs1 sz, HasFields m (k rs1 sz) { Fields.blank with opcode := op, rs1 := Reg.code rs1, szc := Width.code sz } := by
      intros; exact ⟨rfl, rfl⟩) :
    DecoderFollows (Format.SZ.row m op) := by
  rintro f rfl
  rw [hdec f rfl]
  refine Format.answers_ite rfl (by simp [Format.legal_iff]) ?_
  have hkf := hk f.rs1Reg (.ofCode f.szc)
  rwa [Width.code_ofCode] at hkf

theorem decoderFollows_formatDSE (k : Reg → Reg → OrderName → Instr)
    (hdec : DecodesBy op (·.formatDSE k) := by rintro ⟨⟩ rfl; rfl)
    (hk : ∀ rd rs1 ord, HasFields m (k rd rs1 ord)
      { Fields.blank with opcode := op, rd := Reg.code rd, rs1 := Reg.code rs1, ordc := OrderName.code ord } := by
      intros; exact ⟨rfl, rfl⟩) :
    DecoderFollows (Format.DSE.row m op) := by
  rintro f rfl
  rw [hdec f rfl]
  refine Format.answers_order rfl (by simp [Format.legal_iff, and_assoc]) fun o ho => ?_
  have hko := hk f.rdReg f.rs1Reg o
  rwa [ho] at hko

theorem decoderFollows_formatSZE (k : Reg → Width → OrderName → Instr)
    (hdec : DecodesBy op (·.formatSZE k) := by rintro ⟨⟩ rfl; rfl)
    (hk : ∀ rs1 sz ord, HasFields m (k rs1 sz ord)
      { Fields.blank with opcode := op, rs1 := Reg.code rs1, szc := Width.code sz, ordc := OrderName.code ord } := by
      intros; exact ⟨rfl, rfl⟩) :
    DecoderFollows (Format.SZE.row m op) := by
  rintro f rfl
  rw [hdec f rfl]
  refine Format.answers_order rfl (by simp [Format.legal_iff, and_assoc]) fun o ho => ?_
  have hko := hk f.rs1Reg (.ofCode f.szc) o
  rwa [Width.code_ofCode, ho] at hko

theorem decoderFollows_formatDZE (k : Reg → Width → OrderName → Instr)
    (hdec : DecodesBy op (·.formatDZE k) := by rintro ⟨⟩ rfl; rfl)
    (hk : ∀ rd sz ord, HasFields m (k rd sz ord)
      { Fields.blank with opcode := op, rd := Reg.code rd, szc := Width.code sz, ordc := OrderName.code ord } := by
      intros; exact ⟨rfl, rfl⟩) :
    DecoderFollows (Format.DZE.row m op) := by
  rintro f rfl
  rw [hdec f rfl]
  refine Format.answers_order rfl (by simp [Format.legal_iff, and_assoc]) fun o ho => ?_
  have hko := hk f.rdReg (.ofCode f.szc) o
  rwa [Width.code_ofCode, ho] at hko

end

/-! ## The decoder of each opcode -/

theorem decoderFollows_construction : ∀ row ∈ constructionRows, DecoderFollows row := by
  simp only [constructionRows, List.forall_mem_cons]
  exact ⟨decoderFollows_formatD .zero, decoderFollows_formatDB .fill, decoderFollows_formatD .lda, decoderFollows_formatD .ldp,
    decoderFollows_formatDZ .ldi, decoderFollows_formatDS .mov, List.forall_mem_nil _⟩

theorem decoderFollows_elementAccess : ∀ row ∈ elementAccessRows, DecoderFollows row := by
  simp only [elementAccessRows, List.forall_mem_cons]
  exact ⟨decoderFollows_formatS .getb, decoderFollows_formatDB .putb, decoderFollows_formatS .getbu,
    decoderFollows_formatDB .putbu, decoderFollows_formatS .rda, List.forall_mem_nil _⟩

theorem decoderFollows_bitwise : ∀ row ∈ bitwiseRows, DecoderFollows row := by
  simp only [bitwiseRows, List.forall_mem_cons]
  exact ⟨decoderFollows_formatDST .and, decoderFollows_formatDST .or, decoderFollows_formatDST .xor,
    decoderFollows_formatDS .not, decoderFollows_formatST .cmpeq, decoderFollows_formatST .cmplt, List.forall_mem_nil _⟩

theorem decoderFollows_shiftRotate : ∀ row ∈ shiftRotateRows, DecoderFollows row := by
  simp only [shiftRotateRows, List.forall_mem_cons]
  exact ⟨decoderFollows_formatDS .shl, decoderFollows_formatDS .shr, decoderFollows_formatDS .rol,
    decoderFollows_formatDS .ror, List.forall_mem_nil _⟩

theorem decoderFollows_bitInteger : ∀ row ∈ bitIntegerRows, DecoderFollows row := by
  simp only [bitIntegerRows, List.forall_mem_cons]
  exact ⟨decoderFollows_formatD .setbit, decoderFollows_formatD .clrbit, decoderFollows_formatD .tglbit,
    decoderFollows_formatS .tstbit, decoderFollows_formatS .popcnt, decoderFollows_formatSZ .toint, List.forall_mem_nil _⟩

theorem decoderFollows_endian : ∀ row ∈ endianRows, DecoderFollows row := by
  simp only [endianRows, List.forall_mem_cons]
  exact ⟨decoderFollows_formatDS .rev, decoderFollows_formatDS .tole, decoderFollows_formatDS .tobe,
    decoderFollows_formatDS .tonet, decoderFollows_formatDS .fromle, decoderFollows_formatDS .frombe,
    decoderFollows_formatDS .fromnet, decoderFollows_formatDSE .toend, decoderFollows_formatDSE .fromend,
    decoderFollows_formatD .normle, decoderFollows_formatD .normbe, decoderFollows_formatSZE .tointe,
    decoderFollows_formatDZE .ldie, List.forall_mem_nil _⟩

/-- The decoder agrees with every row of the opcode map. -/
theorem decoderFollows_opcodeTable : ∀ row ∈ opcodeTable, DecoderFollows row := by
  simp only [opcodeTable, List.forall_mem_append]
  exact ⟨⟨⟨⟨⟨decoderFollows_construction, decoderFollows_elementAccess⟩, decoderFollows_bitwise⟩,
    decoderFollows_shiftRotate⟩, decoderFollows_bitInteger⟩, decoderFollows_endian⟩

theorem decode_answers {row : OpcodeRow} {w : CtlWord} (hrow : row ∈ opcodeTable) (hop : (Fields.ofWord w).opcode = row.opcode) :
    Answers row w (decode w) := by
  have answers := decoderFollows_opcodeTable row hrow _ hop
  rwa [Fields.toWord_ofWord] at answers

end Sys2Proof
end

section
/-! PROOF. Control words (spec/30_encoding.md): decode and encode are inverse to each other, the map selects each legal word once, a
word is illegal by the list of rule R72 exactly when it does not decode, and what that makes of a command on the port. -/

namespace Sys2Proof.Machine

variable {w : CtlWord} {i : Instr} {row r₁ r₂ : OpcodeRow}

/-! ## From the command to its word and back (rules R65, R77) -/

/-- The fields of a command decode to it, in each format: an operand is read back from its code (rules R66, R67). -/
theorem decodeFields_fieldsOf (i : Instr) : decodeFields (fieldsOf i) = .ok i := by
  cases i with
  | zero rd | lda rd | ldp rd | setbit rd | clrbit rd | tglbit rd | normle rd | normbe rd => rfl
  | fill rd imm8 | putb rd imm8 | putbu rd imm8 => rfl
  | mov rd rs1 | not rd rs1 | shl rd rs1 | shr rd rs1 | rol rd rs1 | ror rd rs1 | rev rd rs1 | tole rd rs1 | tobe rd rs1
  | tonet rd rs1 | fromle rd rs1 | frombe rd rs1 | fromnet rd rs1 => rfl
  | and rd rs1 rs2 | or rd rs1 rs2 | xor rd rs1 rs2 => rfl
  | getb rs1 | getbu rs1 | rda rs1 | tstbit rs1 | popcnt rs1 => rfl
  | cmpeq rs1 rs2 | cmplt rs1 rs2 => rfl
  | ldi r sz | toint r sz => cases sz <;> rfl
  | toend rd rs1 ord | fromend rd rs1 ord => cases ord <;> rfl
  | tointe r sz ord | ldie r sz ord => cases sz <;> cases ord <;> rfl

/-- Settles O1: the word gives back the fields it was put together from, and the fields the command. -/
theorem decodeOfEncodeIsTheCommand : Obligations.DecodeOfEncodeIsTheCommand := by
  intro i
  rw [decode, encode, Fields.ofWord_toWord]
  exact decodeFields_fieldsOf i

/-! ## The opcodes of the map (rule R68) -/

/-- The opcodes are distinct, as rule R70 says. -/
theorem row_eq_of_opcode_eq (h₁ : r₁ ∈ opcodeTable) (h₂ : r₂ ∈ opcodeTable) (h : r₁.opcode = r₂.opcode) : r₁ = r₂ :=
  List.inj_on_of_nodup_map (by decide : (opcodeTable.map (·.opcode)).Nodup) h₁ h₂ h

theorem opcode_assigned_of_mem : ∀ row ∈ opcodeTable, opcodeUnassigned row.opcode.toNat = false := by decide

theorem exists_row_of_opcode_assigned :
    ∀ op : BitVec 8, opcodeUnassigned op.toNat = false → ∃ row ∈ opcodeTable, row.opcode = op := by decide

theorem low_byte_of_mask_and_pattern :
    ∀ row ∈ opcodeTable, row.mask.extractLsb' 0 8 = BitVec.allOnes 8 ∧ row.pattern.extractLsb' 0 8 = row.opcode := by decide

/-- The commands with a byte order are those item 3 of rule R72 lists. -/
theorem hasOrder_eq_contains_opcode :
    ∀ row ∈ opcodeTable, row.hasOrder = [0x67, 0x68, 0x6B, 0x6C].contains row.opcode.toNat := by decide

theorem opcode_toNat (w : CtlWord) : (Fields.ofWord w).opcode.toNat = w.toNat % 256 := by simp [Fields.ofWord]

/-- A row selects words with its own opcode only. -/
theorem opcode_of_selects (hrow : row ∈ opcodeTable) (h : row.selects w = true) : (Fields.ofWord w).opcode = row.opcode := by
  obtain ⟨hmask, hpattern⟩ := low_byte_of_mask_and_pattern row hrow
  obtain ⟨hmatch, -⟩ := (Bool.and_eq_true _ _).mp h
  calc w.extractLsb' 0 8
      = w.extractLsb' 0 8 &&& row.mask.extractLsb' 0 8 := by rw [hmask, BitVec.and_allOnes]
    _ = (w &&& row.mask).extractLsb' 0 8 := BitVec.extractLsb'_and.symm
    _ = row.pattern.extractLsb' 0 8 := by rw [beq_iff_eq.mp hmatch]
    _ = row.opcode := hpattern

/-! ## The decoder against the map (rules R69, R70) -/

theorem decodeFields_unassigned {f : Fields} (h : opcodeUnassigned f.opcode.toNat = true) :
    decodeFields f = .error .unassignedOpcode := by
  unfold decodeFields
  split
  case h_41 => rfl
  all_goals exact absurd h (by rw [‹f.opcode.toNat = _›]; decide)

/-- The opcode of a word is unassigned, or a row of the map has it and the decoder follows the row. -/
theorem decode_cases (w : CtlWord) :
    (opcodeUnassigned (Fields.ofWord w).opcode.toNat = true ∧ decode w = .error .unassignedOpcode) ∨
    ∃ row ∈ opcodeTable, (Fields.ofWord w).opcode = row.opcode ∧ Answers row w (decode w) := by
  cases h : opcodeUnassigned (Fields.ofWord w).opcode.toNat with
  | true => exact .inl ⟨rfl, decodeFields_unassigned h⟩
  | false =>
    obtain ⟨row, hrow, hop⟩ := exists_row_of_opcode_assigned _ h
    exact .inr ⟨row, hrow, hop.symm, decode_answers hrow hop.symm⟩

/-- A legal word is the word of its command, and the row of the command's name selects it. -/
theorem encode_and_row_of_decode (h : decode w = .ok i) :
    encode i = w ∧ ∃ row ∈ opcodeTable, row.mnemonic = i.mnemonic ∧ row.selects w = true := by
  obtain ⟨-, hd⟩ | ⟨row, hrow, -, answers⟩ := decode_cases w
  · exact nomatch h.symm.trans hd
  · rw [h] at answers
    cases answers with
    | ok selected word name => exact ⟨word, row, hrow, name.symm, selected⟩

/-- Settles O2. -/
theorem encodeOfDecodeIsTheWord : Obligations.EncodeOfDecodeIsTheWord := by
  intro w i h
  obtain ⟨word, -⟩ := encode_and_row_of_decode h
  exact word

/-- Settles O3: a legal word has its row, and the decoder follows the row that selects a word. -/
theorem decoderAgreesWithTheOpcodeMap : Obligations.DecoderAgreesWithTheOpcodeMap := by
  intro w m
  constructor
  · rintro ⟨i, hd, rfl⟩
    obtain ⟨-, hrow⟩ := encode_and_row_of_decode hd
    exact hrow
  · rintro ⟨row, hrow, rfl, hs⟩
    exact (decode_answers hrow (opcode_of_selects hrow hs)).ok_of_selects hs

/-- Settles O4: both rows have the opcode of the word. -/
theorem atMostOneRowSelectsAWord : Obligations.AtMostOneRowSelectsAWord := by
  intro w r₁ h₁ r₂ h₂ hs₁ hs₂
  have hop : r₁.opcode = r₂.opcode := (opcode_of_selects h₁ hs₁).symm.trans (opcode_of_selects h₂ hs₂)
  exact row_eq_of_opcode_eq h₁ h₂ hop

/-! ## The list of rule R72 -/

/-- Item 2 of rule R72 on a word with the row's opcode: no other row has a say. -/
theorem any_mismatch_eq (hrow : row ∈ opcodeTable) (w : CtlWord) :
    (opcodeTable.any fun r => r.opcode.toNat == row.opcode.toNat && w &&& r.mask != r.pattern) =
      (w &&& row.mask != row.pattern) := by
  rw [Bool.eq_iff_iff, List.any_eq_true]
  constructor
  · rintro ⟨r, hr, h⟩
    rw [Bool.and_eq_true, beq_iff_eq, BitVec.toNat_inj] at h
    obtain ⟨hsame, hne⟩ := h
    rwa [← row_eq_of_opcode_eq hr hrow hsame]
  · exact fun h => ⟨row, hrow, by simpa using h⟩

theorem reservedOrder_eq (w : CtlWord) : (w.toNat / 2 ^ 22 % 4 == 3) = (w.extractLsb' 22 2 == 3#2) := by
  rw [Bool.eq_iff_iff, beq_iff_eq, beq_iff_eq, ← BitVec.toNat_inj, BitVec.extractLsb'_toNat, Nat.shiftRight_eq_div_pow]
  rfl

/-- A word with the opcode of a row is illegal by the list exactly when the row does not select it. -/
theorem illegalWord_eq_not_selects (hrow : row ∈ opcodeTable) (hop : (Fields.ofWord w).opcode = row.opcode) :
    illegalWord w = !row.selects w := by
  rw [illegalWord, ← opcode_toNat, hop, opcode_assigned_of_mem row hrow, any_mismatch_eq hrow,
    ← hasOrder_eq_contains_opcode row hrow, reservedOrder_eq, Bool.false_or, OpcodeRow.selects, Bool.not_and, Bool.not_not]
  rfl

theorem illegalWord_iff (w : CtlWord) : illegalWord w = true ↔ ∃ e, decode w = .error e := by
  obtain ⟨hun, hd⟩ | ⟨row, hrow, hop, answers⟩ := decode_cases w
  · simp [illegalWord, ← opcode_toNat, hun, hd]
  · rw [illegalWord_eq_not_selects hrow hop, answers.error_iff, Bool.not_eq_true']

/-! ## Assembler lines (rule R77) -/

theorem assemble_din (c : Config) (i : Instr) (opnd : Scalar) (lanes : Buffer) :
    (assemble c i opnd lanes).din = build c.n fun k => if i.readsDin = true then byteAt lanes k else 0 := rfl

/-- Settles O6. -/
theorem assembledCommandIsWellFormedAndDecodes : Obligations.AssembledCommandIsWellFormedAndDecodes := by
  intro c i opnd lanes
  refine ⟨decodeOfEncodeIsTheCommand i, ?_, rfl, fun k hk => ?_⟩
  · simp [Command.wellFormed, Buffer.hasLength, assemble_din]
  · rw [assemble_din, byteAt_build_lt hk]
    rfl

/-- Settles O5, by evaluation of the decoder on each word. -/
theorem wordsOfTheSpecDecodeToTheirCommands : Obligations.WordsOfTheSpecDecodeToTheirCommands :=
  ⟨rfl, rfl, rfl, rfl, rfl, rfl, rfl, rfl, rfl, rfl, rfl, rfl, rfl, rfl, rfl, rfl, rfl⟩

/-! ## Commands on the port (rules R61, R62, R70) -/

variable {s t : State}

/-- Settles O8. -/
theorem stepExecutesTheDecodedCommand : Obligations.StepExecutesTheDecodedCommand := by
  intro s c rest i hf hh hd
  have legal : runSampled (s.accept c rest) = exec i (s.accept c rest) := runSampled_legal hf hd
  exact ⟨(step_command hh).trans legal, rfl⟩

theorem exec_flt (h : exec i s = .next t) : t.flt = s.flt := by
  obtain ⟨-, -, hflt, -⟩ := commandsChangeOnlyTheirDestination i s t h
  exact hflt

/-- Settles O7: a word is on the list exactly when it does not decode, and a command that is executed raises nothing. -/
theorem illegalCommandIsRaisedExactlyOnIllegalWords : Obligations.IllegalCommandIsRaisedExactlyOnIllegalWords := by
  intro s c rest hf hh
  rw [illegalWord_iff, step_command hh]
  constructor
  · rintro ⟨t, ht, hflt⟩
    obtain ⟨hfaulted, -⟩ | ⟨-, hd, -⟩ | ⟨-, i, -, hi⟩ := runSampled_cases ht
    · exact absurd (hf.symm.trans hfaulted) Bool.false_ne_true
    · exact hd
    · have hkept : t.flt = (s.accept c rest).flt := exec_flt hi
      exact absurd (hf.symm.trans (hkept.symm.trans hflt)) Bool.false_ne_true
  · rintro ⟨e, hd⟩
    exact ⟨_, runSampled_illegal (s := s.accept c rest) hf hd, rfl⟩

/-- An executed command gives one response, of status OK. -/
theorem exec_response (h : exec i s = .next t) : ∃ r, t.sent = s.sent ++ [r] ∧ r.status = .ok := by
  have ends := exec_ends i s
  rw [h] at ends
  cases ends with
  | write _ y => exact ⟨_, State.writeBack_sent .., rfl⟩
  | keep => exact ⟨_, State.respond_sent .., rfl⟩
  | scalar _ v => exact ⟨_, State.returnScalar_sent .., rfl⟩
  | buffer _ y => exact ⟨_, State.returnBuffer_sent .., rfl⟩

/-- Settles O17: a sampled command is rejected, raises the exception, or is executed. -/
theorem everyCommandGetsOneResponse : Obligations.EveryCommandGetsOneResponse := by
  intro s t c rest hh h
  rw [step_command hh] at h
  refine ⟨runSampled_host h, ?_⟩
  obtain ⟨hf, rfl⟩ | ⟨hf, hd, rfl⟩ | ⟨hf, i, hd, hi⟩ := runSampled_cases h
  all_goals simp only [State.accept_flt] at hf
  · exact ⟨_, State.reject_sent _, by simp [hf], by simp [hf]⟩
  · exact ⟨_, State.raiseIllegal_sent .., by simp [hf], by simpa [hf] using hd⟩
  · obtain ⟨r, hsent, hok⟩ := exec_response hi
    have hlegal : decode c.ctl = .ok i := hd
    exact ⟨r, hsent, by simp [hok, hf], by simp [hok, hlegal]⟩

end Sys2Proof.Machine
end

section
/-! PROOF. The construction commands (spec/40_construction.md): each has the control word of its fields and writes one whole buffer,
so what it gives is what that buffer holds. -/

namespace Sys2Proof.Machine

variable {i : Instr} {s : State} {rd rs1 : Reg} {y : Buffer}

/-! ## The control word of a command, and the end of a command that writes a register -/

/-- The control word of a command as the number its fields make (spec/30_encoding.md rules R65, R77). -/
theorem encode_toNat (i : Instr) :
    (encode i).toNat = ctlNumber (fieldsOf i).opcode.toNat (fieldsOf i).rd.toNat (fieldsOf i).rs1.toNat (fieldsOf i).rs2.toNat
      (fieldsOf i).szc.toNat (fieldsOf i).ordc.toNat (fieldsOf i).imm8.toNat :=
  Fields.toWord_toNat (fieldsOf i)

/-- The frame of a command that writes `rd` and returns nothing (spec/10_state.md rules R22, R23). -/
theorem writesOnly_writeBack (s : State) (rd : Reg) (y : Buffer) :
    WritesOnly s (s.writeBack rd y) rd { status := .ok, res := 0, dout := zeroBuffer s.cfg.n } :=
  ⟨rfl, rfl, rfl, rfl, rfl, rfl, rfl, fun _ hr => State.writeBack_reg_other s y hr⟩

/-- A command that writes a complete buffer to `rd` gives the bytes of that buffer. -/
theorem givesBytes_of_writeBack {f : Nat → Byte} (h : exec i s = .next (s.writeBack rd y)) (hlen : y.length = s.cfg.n)
    (hbytes : ∀ k < s.cfg.n, byteAt y k = f k) : GivesBytes i s rd f := by
  refine ⟨_, h, writesOnly_writeBack s rd y, ?_⟩
  rw [State.writeBack_reg_self]
  exact ⟨hlen, hbytes⟩

/-! ## The obligations -/

/-- Settles O28. -/
theorem ldiWritesTheIntegerModuloItsWidth : Obligations.LdiWritesTheIntegerModuloItsWidth :=
  fun s rd sz => ⟨encode_toNat (.ldi rd sz), givesValue_ldi s rd sz⟩

/-- Settles O26. -/
theorem zeroAndFillWriteOneByteEverywhere : Obligations.ZeroAndFillWriteOneByteEverywhere := by
  intro s rd imm8
  refine ⟨encode_toNat (.zero rd), encode_toNat (.fill rd imm8), ?_, ?_⟩
  · exact givesBytes_of_writeBack (exec_zero s rd) (length_zeroBuffer _) fun k _ => byteAt_zeroBuffer _ k
  · exact givesBytes_of_writeBack (exec_fill s rd imm8) (length_fillBuffer _ _) fun _ hk => byteAt_fillBuffer hk

/-- Settles O27. -/
theorem ldaAndLdpCopyDataLanes : Obligations.LdaAndLdpCopyDataLanes := by
  intro s rd
  refine ⟨encode_toNat (.lda rd), encode_toNat (.ldp rd), ?_, ?_⟩
  · exact givesBytes_of_writeBack (exec_lda s rd) (length_copyLanes _ _) fun _ hk => byteAt_copyLanes hk
  · exact givesBytes_of_writeBack (exec_ldp s rd) (length_copyPrefix _ _ _) fun _ hk => byteAt_copyPrefix hk

/-- After a copy the source holds what it held, also when it is the destination (rule R107). -/
theorem writeBack_copy_keeps_source (s : State) (rd rs1 : Reg) : (s.writeBack rd (s.reg rs1)).reg rs1 = s.reg rs1 := by
  by_cases h : rs1 = rd
  · subst h
    exact State.writeBack_reg_self ..
  · exact State.writeBack_reg_other s _ h

/-- CMPEQ of two registers that hold the same value answers 1 (spec/42_bitwise_compare.md rule R145). -/
theorem givesScalar_cmpeq_of_reg_eq (h : s.reg rd = s.reg rs1) : GivesScalar (.cmpeq rd rs1) s 1 := by
  have hequal : equalBuffers s.cfg.n (s.reg rd) (s.reg rs1) = true := (equalBuffers_iff ..).mpr fun _ _ => by rw [h]
  have hanswer := givesScalar_of_returnScalar (exec_cmpeq s rd rs1)
  rwa [hequal, truth_toNat] at hanswer

/-- Settles O29: after the copy both registers hold the source's old value, so CMPEQ finds them equal. -/
theorem movCopiesAndKeepsItsSource : Obligations.MovCopiesAndKeepsItsSource := by
  intro s rd rs1
  have hcopy : (s.writeBack rd (s.reg rs1)).reg rd = s.reg rs1 := State.writeBack_reg_self ..
  have hkept := writeBack_copy_keeps_source s rd rs1
  exact ⟨encode_toNat (.mov rd rs1), _, exec_mov s rd rs1, writesOnly_writeBack s rd _, hcopy, hkept,
    givesScalar_cmpeq_of_reg_eq (hcopy.trans hkept.symm)⟩

end Sys2Proof.Machine
end

section
/-! PROOF. Element access (spec/41_element_access.md): GETB and PUTB reach the byte at the clamped index, GETBU and PUTBU are the
same commands as long as the index is in range, and RDA answers the register as it is. -/

namespace Sys2Proof.Machine

variable {s : State}

/-! ## Permissive access (rules R120 to R122) -/

/-- GETB answers the byte at the index the operand clamps to. -/
theorem givesScalar_getb_of_clampIndex {j : Nat} (rs1 : Reg) (hj : clampIndex s.cfg.n (amountOf s.cmd) = j) :
    GivesScalar (.getb rs1) s (byteAt (s.reg rs1) j).toNat := by
  have hread := givesScalar_of_returnScalar (exec_getb s rs1)
  rwa [hj, BitVec.toNat_setWidth_of_le (by decide)] at hread

/-- PUTB replaces the byte at the index the operand clamps to. That index always lies inside a complete register. -/
theorem givesBytes_putb_of_clampIndex {j : Nat} {rd : Reg} (imm8 : Byte) (hlen : (s.reg rd).length = s.cfg.n)
    (hj : clampIndex s.cfg.n (amountOf s.cmd) = j) :
    GivesBytes (.putb rd imm8) s rd (fun k => if k = j then imm8 else byteAt (s.reg rd) k) := by
  have hin : j < (s.reg rd).length := by
    rw [hlen, ← hj]
    exact clampIndex_lt s.cfg.n_pos _
  have hwrite := exec_putb s rd imm8
  rw [hj] at hwrite
  refine givesBytes_of_writeBack hwrite (by rw [length_setByte, hlen]) fun k _ => ?_
  simp only [byteAt_setByte, hin, and_true]

/-- Settles O30: an index below `N` clamps to itself, one from `N` on to `N - 1`. -/
theorem permissiveAccessClampsTheIndex : Obligations.PermissiveAccessClampsTheIndex := by
  refine ⟨fun s rs1 => ⟨encode_toNat (.getb rs1), fun hlt => ?_, fun hle => ?_⟩,
    fun s rd imm8 hlen => ⟨encode_toNat (.putb rd imm8), fun hlt => ?_, fun hle => ?_⟩⟩
  · exact givesScalar_getb_of_clampIndex rs1 (clampIndex_of_lt hlt)
  · exact givesScalar_getb_of_clampIndex rs1 (clampIndex_of_le hle)
  · exact givesBytes_putb_of_clampIndex imm8 hlen (clampIndex_of_lt hlt)
  · exact givesBytes_putb_of_clampIndex imm8 hlen (clampIndex_of_le hle)

/-! ## Unchecked access (rules R124 to R126) -/

/-- In range GETBU is GETB, which does not move such an index. -/
theorem exec_getbu_eq_getb (rs1 : Reg) (h : amountOf s.cmd < s.cfg.n) : exec (.getbu rs1) s = exec (.getb rs1) s := by
  rw [exec_getbu, exec_getb, if_pos h, clampIndex_of_lt h]

/-- In range PUTBU is PUTB, which does not move such an index. -/
theorem exec_putbu_eq_putb (rd : Reg) (imm8 : Byte) (h : amountOf s.cmd < s.cfg.n) :
    exec (.putbu rd imm8) s = exec (.putb rd imm8) s := by
  rw [exec_putbu, exec_putb, if_pos h, clampIndex_of_lt h]

/-- The model stops on every unchecked access from `N` on (rule R124). -/
theorem exec_uncheckedAccess_out_of_range {i : Instr} (hi : uncheckedAccess i = true) (h : s.cfg.n ≤ amountOf s.cmd) :
    exec i s = .fault .uncheckedIndex := by
  cases i with
  | getbu rs1 => rw [exec_getbu, if_neg h.not_gt]
  | putbu rd imm8 => rw [exec_putbu, if_neg h.not_gt]
  | _ => exact nomatch hi

/-- Settles O31: in range what GETB and PUTB give (O30) carries over to GETBU and PUTBU. -/
theorem uncheckedAccessIsDefinedBelowN : Obligations.UncheckedAccessIsDefinedBelowN := by
  obtain ⟨hget, hput⟩ := permissiveAccessClampsTheIndex
  refine ⟨fun s rs1 => ⟨encode_toNat (.getbu rs1), fun hlt => ?_, exec_uncheckedAccess_out_of_range rfl⟩,
    fun s rd imm8 hlen => ⟨encode_toNat (.putbu rd imm8), fun hlt => ?_, exec_uncheckedAccess_out_of_range rfl⟩⟩
  · have hsame := exec_getbu_eq_getb rs1 hlt
    obtain ⟨-, hbelow, -⟩ := hget s rs1
    exact ⟨by simpa only [GivesScalar, hsame] using hbelow hlt, hsame⟩
  · have hsame := exec_putbu_eq_putb rd imm8 hlt
    obtain ⟨-, hbelow, -⟩ := hput s rd imm8 hlen
    exact ⟨by simpa only [GivesBytes, hsame] using hbelow hlt, hsame⟩

/-! ## Read-out (rule R127) -/

/-- The lanes of a complete data input are the input itself (spec/40_construction.md rule R102). -/
theorem copyLanes_eq_self {n : Nat} {din : Buffer} (h : din.length = n) : copyLanes n din = din := build_byteAt h

theorem length_din_of_wellFormed {c : Config} {cmd : Command} (h : cmd.wellFormed c = true) : cmd.din.length = c.n :=
  beq_iff_eq.mp h

/-- Settles O32: LDA leaves all lanes of the data input in the register, and RDA answers what the register holds. -/
theorem rdaReadsOutWhatLdaLoaded : Obligations.RdaReadsOutWhatLdaLoaded := by
  refine ⟨fun s rs1 => ⟨encode_toNat (.rda rs1), _, exec_rda s rs1, rfl⟩, fun s rd hwf => ?_⟩
  refine ⟨_, _, exec_lda s rd, exec_rda _ rd, ?_⟩
  have hloaded : (s.writeBack rd (copyLanes s.cfg.n s.cmd.din)).reg rd = s.cmd.din := by
    rw [State.writeBack_reg_self, copyLanes_eq_self (length_din_of_wellFormed hwf)]
  rw [State.returnBuffer_sent, hloaded, bufferResponse]

end Sys2Proof.Machine
end

section
/-! PROOF. Bitwise algebra and comparison (spec/42_bitwise_compare.md): the four logic commands said by bytes, by bits and as laws on
buffers; CMPEQ and CMPLT answer a truth value, CMPLT by an order that the first byte at which two buffers differ decides. -/

namespace Sys2Proof.Machine

variable {i : Instr} {s : State} {rd : Reg} {n p v : Nat} {x y z : Buffer}

/-! ## The bitwise buffers by bits and as numbers (rules R140, R144) -/

theorem bitAt_andBuffers (hp : p < 8 * n) : bitAt (andBuffers n x y) p = (bitAt x p && bitAt y p) := by
  rw [andBuffers, bitAt_build _ hp, BitVec.getLsbD_and, bitAt, bitAt]

theorem bitAt_orBuffers (hp : p < 8 * n) : bitAt (orBuffers n x y) p = (bitAt x p || bitAt y p) := by
  rw [orBuffers, bitAt_build _ hp, BitVec.getLsbD_or, bitAt, bitAt]

theorem bitAt_xorBuffers (hp : p < 8 * n) : bitAt (xorBuffers n x y) p = (bitAt x p ^^ bitAt y p) := by
  rw [xorBuffers, bitAt_build _ hp, BitVec.getLsbD_xor, bitAt, bitAt]

theorem bitAt_notBuffer (hp : p < 8 * n) : bitAt (notBuffer n x) p = !bitAt x p := by
  have hbit : p % 8 < 8 := Nat.mod_lt _ (by decide)
  rw [notBuffer, bitAt_build _ hp, BitVec.getLsbD_not, bitAt, decide_eq_true hbit, Bool.true_and]

/-- `V(NOT x) = 2^W - 1 - V(x)` (rule R144). -/
theorem value_notBuffer (hx : x.length = n) : value (notBuffer n x) = 2 ^ (8 * n) - 1 - value x := by
  have hlt : value x < 2 ^ (8 * n) := hx ▸ value_lt x
  rw [Nat.sub_sub, Nat.add_comm 1]
  refine Nat.eq_of_testBit_eq fun p => ?_
  rw [Nat.testBit_two_pow_sub_succ hlt, value_testBit, value_testBit]
  by_cases hp : p < 8 * n
  · rw [bitAt_notBuffer hp, decide_eq_true hp, Bool.true_and]
  · rw [bitAt_of_length_le (by simpa using hp), decide_eq_false hp, Bool.false_and]

/-! ## The commands AND, OR, XOR, NOT (rules R141 to R144) -/

/-- A command that writes a complete buffer to `rd` gives the bits of that buffer. -/
theorem givesBits_of_writeBack {f : Nat → Bool} (h : exec i s = .next (s.writeBack rd y)) (hlen : y.length = s.cfg.n)
    (hbits : ∀ p < s.cfg.w, bitAt y p = f p) : GivesBits i s rd f := by
  refine ⟨_, h, writesOnly_writeBack s rd y, ?_⟩
  rw [State.writeBack_reg_self]
  exact ⟨hlen, hbits⟩

/-- A command that writes a complete buffer to `rd` gives the number of that buffer. -/
theorem givesValue_of_writeBack (h : exec i s = .next (s.writeBack rd y)) (hlen : y.length = s.cfg.n)
    (hvalue : value y = v) : GivesValue i s rd v := by
  refine ⟨_, h, writesOnly_writeBack s rd y, ?_⟩
  rw [State.writeBack_reg_self]
  exact ⟨hlen, hvalue⟩

/-- Settles O33. -/
theorem bitwiseCommandsWorkLaneByLane : Obligations.BitwiseCommandsWorkLaneByLane := by
  intro s rd rs1 rs2
  refine ⟨encode_toNat (.and rd rs1 rs2), encode_toNat (.or rd rs1 rs2), encode_toNat (.xor rd rs1 rs2),
    encode_toNat (.not rd rs1), ?_, ?_, ?_, ?_⟩
  · exact givesBytes_of_writeBack (exec_and s rd rs1 rs2) (length_andBuffers ..) fun _ => byteAt_andBuffers
  · exact givesBytes_of_writeBack (exec_or s rd rs1 rs2) (length_orBuffers ..) fun _ => byteAt_orBuffers
  · exact givesBytes_of_writeBack (exec_xor s rd rs1 rs2) (length_xorBuffers ..) fun _ => byteAt_xorBuffers
  · exact givesBytes_of_writeBack (exec_not s rd rs1) (length_notBuffer ..) fun _ => byteAt_notBuffer

/-- Settles O34. -/
theorem bitwiseCommandsWorkBitByBit : Obligations.BitwiseCommandsWorkBitByBit := by
  intro s rd rs1 rs2
  refine ⟨?_, ?_, ?_, ?_, fun hlen => ?_⟩
  · exact givesBits_of_writeBack (exec_and s rd rs1 rs2) (length_andBuffers ..) fun _ => bitAt_andBuffers
  · exact givesBits_of_writeBack (exec_or s rd rs1 rs2) (length_orBuffers ..) fun _ => bitAt_orBuffers
  · exact givesBits_of_writeBack (exec_xor s rd rs1 rs2) (length_xorBuffers ..) fun _ => bitAt_xorBuffers
  · exact givesBits_of_writeBack (exec_not s rd rs1) (length_notBuffer ..) fun _ => bitAt_notBuffer
  · exact givesValue_of_writeBack (exec_not s rd rs1) (length_notBuffer ..) (value_notBuffer hlen)

/-! ## The laws of the algebra (rule R148), each from the same law of one byte -/

theorem andBuffers_comm (n : Nat) (x y : Buffer) : andBuffers n x y = andBuffers n y x :=
  build_congr fun _ _ => BitVec.and_comm ..

theorem orBuffers_comm (n : Nat) (x y : Buffer) : orBuffers n x y = orBuffers n y x :=
  build_congr fun _ _ => BitVec.or_comm ..

theorem xorBuffers_comm (n : Nat) (x y : Buffer) : xorBuffers n x y = xorBuffers n y x :=
  build_congr fun _ _ => BitVec.xor_comm ..

theorem andBuffers_assoc (n : Nat) (x y z : Buffer) :
    andBuffers n (andBuffers n x y) z = andBuffers n x (andBuffers n y z) :=
  build_congr fun i hi => by rw [byteAt_andBuffers hi, byteAt_andBuffers hi, BitVec.and_assoc]

theorem orBuffers_assoc (n : Nat) (x y z : Buffer) :
    orBuffers n (orBuffers n x y) z = orBuffers n x (orBuffers n y z) :=
  build_congr fun i hi => by rw [byteAt_orBuffers hi, byteAt_orBuffers hi, BitVec.or_assoc]

theorem xorBuffers_assoc (n : Nat) (x y z : Buffer) :
    xorBuffers n (xorBuffers n x y) z = xorBuffers n x (xorBuffers n y z) :=
  build_congr fun i hi => by rw [byteAt_xorBuffers hi, byteAt_xorBuffers hi, BitVec.xor_assoc]

/-- De Morgan's law. -/
theorem notBuffer_andBuffers (n : Nat) (x y : Buffer) :
    notBuffer n (andBuffers n x y) = orBuffers n (notBuffer n x) (notBuffer n y) :=
  build_congr fun i hi => by rw [byteAt_andBuffers hi, byteAt_notBuffer hi, byteAt_notBuffer hi, BitVec.not_and]

theorem xorBuffers_self (n : Nat) (x : Buffer) : xorBuffers n x x = zeroBuffer n :=
  buffer_ext (by simp) fun i hi => by
    have hin : i < n := by simpa using hi
    simp [byteAt_xorBuffers hin]

/-- A buffer built from bytes that are those of `x` is `x`. -/
theorem build_eq_of_byteAt {f : Nat → Byte} (hx : x.length = n) (h : ∀ i < n, f i = byteAt x i) : build n f = x :=
  (build_congr h).trans (build_byteAt hx)

theorem andBuffers_self (hx : x.length = n) : andBuffers n x x = x :=
  build_eq_of_byteAt hx fun _ _ => BitVec.and_self

theorem orBuffers_self (hx : x.length = n) : orBuffers n x x = x :=
  build_eq_of_byteAt hx fun _ _ => BitVec.or_self

theorem notBuffer_notBuffer (hx : x.length = n) : notBuffer n (notBuffer n x) = x :=
  build_eq_of_byteAt hx fun i hi => by rw [byteAt_notBuffer hi, BitVec.not_not]

/-- What `y` masks out of `x` and what it masks in make `x` (rule R148 item 1). -/
theorem orBuffers_and_and_not (hx : x.length = n) :
    orBuffers n (andBuffers n x y) (andBuffers n x (notBuffer n y)) = x :=
  build_eq_of_byteAt hx fun i hi => by
    rw [byteAt_andBuffers hi, byteAt_andBuffers hi, byteAt_notBuffer hi, ← BitVec.and_or_distrib_left,
      BitVec.or_not_self, BitVec.and_allOnes]

/-- The members in both, and those in one or the other, are together as many as those in each. -/
theorem countP_and_add_countP_or {α : Type} (f g : α → Bool) (l : List α) :
    (l.countP fun a => f a && g a) + (l.countP fun a => f a || g a) = l.countP f + l.countP g := by
  induction l with
  | nil => rfl
  | cons a l ih =>
    by_cases hf : f a = true
    · simp only [List.countP_cons, hf, Bool.true_and, Bool.true_or, if_true]
      omega
    · simp only [List.countP_cons, hf, Bool.false_and, Bool.false_or]
      omega

/-- The count of a buffer, from what its bits are. -/
theorem popCount_eq_countP_of_bits {f : Nat → Bool} (h : ∀ p < 8 * n, bitAt x p = f p) :
    popCount n x = (List.range (8 * n)).countP f := by
  rw [popCount_eq_countP]
  exact List.countP_congr fun p hp => by rw [h p (List.mem_range.mp hp)]

/-- Bit by bit, AND and OR count what the two buffers count (rule R148 item 3). -/
theorem popCount_and_add_popCount_or (n : Nat) (x y : Buffer) :
    popCount n (andBuffers n x y) + popCount n (orBuffers n x y) = popCount n x + popCount n y := by
  rw [popCount_eq_countP_of_bits fun _ => bitAt_andBuffers, popCount_eq_countP_of_bits fun _ => bitAt_orBuffers,
    countP_and_add_countP_or, popCount_eq_countP, popCount_eq_countP]

/-- Settles O35. -/
theorem bitwiseAlgebraLaws : Obligations.BitwiseAlgebraLaws := by
  intro n a b c ha _ _
  exact ⟨orBuffers_and_and_not ha, andBuffers_comm n a b, orBuffers_comm n a b, xorBuffers_comm n a b,
    andBuffers_assoc n a b c, orBuffers_assoc n a b c, xorBuffers_assoc n a b c,
    andBuffers_self ha, orBuffers_self ha, xorBuffers_self n a, notBuffer_notBuffer ha,
    notBuffer_andBuffers n a b, popCount_and_add_popCount_or n a b⟩

/-! ## CMPEQ and CMPLT (rules R145, R147) -/

/-- A command that returns the truth value of `P` gives 1 when `P` holds, else 0 (spec/10_state.md rule R26). -/
theorem givesScalar_of_truth {c : Bool} {P : Prop} (h : exec i s = .next (s.returnScalar (truth c))) (hP : c = true ↔ P) :
    (P → GivesScalar i s 1) ∧ (¬P → GivesScalar i s 0) := by
  have hanswer := givesScalar_of_returnScalar h
  rw [truth_toNat] at hanswer
  cases c with
  | true => exact ⟨fun _ => hanswer, fun hnot => absurd (hP.mp rfl) hnot⟩
  | false => exact ⟨fun hyes => absurd (hP.mpr hyes) Bool.false_ne_true, fun _ => hanswer⟩

/-- Settles O36. -/
theorem cmpeqDecidesEqualityOfRegisters : Obligations.CmpeqDecidesEqualityOfRegisters := by
  intro s rs1 rs2
  obtain ⟨hone, hzero⟩ := givesScalar_of_truth (exec_cmpeq s rs1 rs2) (equalBuffers_iff ..)
  refine ⟨encode_toNat (.cmpeq rs1 rs2), hone, hzero, fun h1 h2 => ⟨⟨fun hbytes => ?_, fun heq _ _ => by rw [heq]⟩, ?_⟩⟩
  · exact buffer_ext (h1.trans h2.symm) fun k hk => hbytes k (h1 ▸ hk)
  · exact ⟨congrArg value, value_injective (h1.trans h2.symm)⟩

/-- Settles O37. -/
theorem cmpltComparesFromByteZeroUp : Obligations.CmpltComparesFromByteZeroUp := by
  intro s rs1 rs2
  obtain ⟨hone, hzero⟩ := givesScalar_of_truth (exec_cmplt s rs1 rs2) (lexLess_iff ..)
  exact ⟨encode_toNat (.cmplt rs1 rs2), hone, hzero⟩

/-! ## The order of CMPLT (rule R146) -/

theorem not_lexLess_self (n : Nat) (x : Buffer) : ¬ lexLess n x x = true := by
  rw [lexLess_iff]
  rintro ⟨k, -, -, hlt⟩
  exact Nat.lt_irrefl _ hlt

/-- The first place where the two pairs decide is the earlier of their two places. -/
theorem lexLess_trans (hxy : lexLess n x y = true) (hyz : lexLess n y z = true) : lexLess n x z = true := by
  rw [lexLess_iff] at hxy hyz ⊢
  obtain ⟨k, hk, hkeq, hklt⟩ := hxy
  obtain ⟨m, hm, hmeq, hmlt⟩ := hyz
  obtain h | rfl | h := Nat.lt_trichotomy k m
  · exact ⟨k, hk, fun j hj => (hkeq j hj).trans (hmeq j (hj.trans h)), hmeq k h ▸ hklt⟩
  · exact ⟨k, hk, fun j hj => (hkeq j hj).trans (hmeq j hj), hklt.trans hmlt⟩
  · exact ⟨m, hm, fun j hj => (hkeq j (hj.trans h)).trans (hmeq j hj), hkeq m h ▸ hmlt⟩

theorem lexLess_asymm (h : lexLess n x y = true) : ¬ lexLess n y x = true := fun h' =>
  not_lexLess_self n x (lexLess_trans h h')

/-- Two different buffers of one length have a first byte at which they differ. -/
theorem exists_first_difference (hx : x.length = n) (hy : y.length = n) (hne : x ≠ y) :
    ∃ k < n, (∀ j < k, byteAt x j = byteAt y j) ∧ byteAt x k ≠ byteAt y k := by
  have hdiffer : ∃ k, k < n ∧ byteAt x k ≠ byteAt y k := by
    by_contra hnone
    push Not at hnone
    exact hne (buffer_ext (hx.trans hy.symm) fun k hk => hnone k (hx ▸ hk))
  obtain ⟨hk, hkne⟩ := Nat.find_spec hdiffer
  refine ⟨Nat.find hdiffer, hk, fun j hj => ?_, hkne⟩
  by_contra hjne
  exact Nat.find_min hdiffer hj ⟨hj.trans hk, hjne⟩

theorem lexLess_or_lexLess_of_ne (hx : x.length = n) (hy : y.length = n) (hne : x ≠ y) :
    lexLess n x y = true ∨ lexLess n y x = true := by
  obtain ⟨k, hk, hsame, hdiffer⟩ := exists_first_difference hx hy hne
  rw [lexLess_iff, lexLess_iff]
  obtain hlt | hgt := Nat.lt_or_gt_of_ne fun h => hdiffer (BitVec.eq_of_toNat_eq h)
  · exact .inl ⟨k, hk, hsame, hlt⟩
  · exact .inr ⟨k, hk, fun j hj => (hsame j hj).symm, hgt⟩

/-- On one byte the order is that of the values. -/
theorem lexLess_one_iff_value_lt (hx : x.length = 1) (hy : y.length = 1) : lexLess 1 x y = true ↔ value x < value y := by
  obtain ⟨u, rfl⟩ := List.length_eq_one_iff.mp hx
  obtain ⟨w, rfl⟩ := List.length_eq_one_iff.mp hy
  simp [lexLess_iff, value_cons]

/-- From two bytes on the order is not that of the values: byte 0 decides first and weighs least, so `[00 01 00 ..]` is before
`[01 00 00 ..]` and has the larger value. -/
theorem exists_lexLess_and_value_gt (hn : 2 ≤ n) :
    ∃ x y : Buffer, x.length = n ∧ y.length = n ∧ lexLess n x y = true ∧ value y < value x := by
  obtain ⟨m, rfl⟩ := Nat.exists_eq_add_of_le' hn
  refine ⟨0 :: 1 :: zeroBuffer m, 1 :: 0 :: zeroBuffer m, by simp, by simp, (lexLess_iff ..).mpr ⟨0, by omega, ?_, ?_⟩, ?_⟩
  · exact fun j hj => absurd hj (Nat.not_lt_zero j)
  · simp
  · simp [value_cons]

/-- Settles O38: the order is irreflexive and transitive, and of two different buffers the first difference puts one before the
other. -/
theorem lexicographicOrderIsStrictAndTotal : Obligations.LexicographicOrderIsStrictAndTotal := by
  refine ⟨lexLess_iff, fun n a c ha hc => ⟨?_, ?_, ?_, fun ⟨h, h'⟩ => lexLess_asymm h h'⟩, fun _ _ _ _ => lexLess_trans,
    fun _ _ => lexLess_one_iff_value_lt, fun _ => exists_lexLess_and_value_gt⟩
  · by_cases heq : a = c
    · exact .inr (.inl heq)
    · exact (lexLess_or_lexLess_of_ne ha hc heq).imp_right .inr
  · rintro ⟨h, rfl⟩
    exact not_lexLess_self n a h
  · rintro ⟨rfl, h⟩
    exact not_lexLess_self n a h

end Sys2Proof.Machine
end

section
/-! PROOF. The shifts (spec/43_shift.md): as numbers, SHL multiplies and SHR divides by a power of two; the laws of rule R164 are
those of multiplication and division. -/

namespace Sys2Proof.Machine

variable {n : Nat} {x : Buffer}

/-! ## The shifted buffers as numbers (rules R160, R161) -/

/-- `V(shl(x, s)) = V(x) * 2^s mod 2^W`, whatever the amount. -/
theorem value_shl (s : Nat) (hx : x.length = n) : value (shl n x s) = value x * 2 ^ s % 2 ^ (8 * n) := by
  refine Nat.eq_of_testBit_eq fun p => ?_
  rw [value_testBit, Nat.testBit_mod_two_pow, Nat.testBit_mul_two_pow, value_testBit]
  by_cases hp : p < 8 * n
  · rw [bitAt_shl x s hp, decide_eq_true hp, Bool.true_and]
  · rw [bitAt_of_length_le (by rw [length_shl s hx]; omega), decide_eq_false hp, Bool.false_and]

/-- `V(shr(x, s)) = V(x) div 2^s`, whatever the amount. -/
theorem value_shr (s : Nat) (hx : x.length = n) : value (shr n x s) = value x / 2 ^ s := by
  refine Nat.eq_of_testBit_eq fun p => ?_
  rw [value_testBit, Nat.testBit_div_two_pow, value_testBit]
  by_cases hp : p < 8 * n
  · exact bitAt_shr s hx hp
  · rw [bitAt_of_length_le (by rw [length_shr s hx]; omega), bitAt_of_length_le (by omega)]

/-! ## The commands SHL and SHR (rules R162, R163) -/

/-- Settles O39. -/
theorem shlMultipliesByAPowerOfTwo : Obligations.ShlMultipliesByAPowerOfTwo := by
  intro s rd rs1 hlen
  exact ⟨encode_toNat (.shl rd rs1), givesValue_of_writeBack (exec_shl s rd rs1) (length_shl _ hlen) (value_shl _ hlen)⟩

/-- Settles O40. -/
theorem shrDividesByAPowerOfTwo : Obligations.ShrDividesByAPowerOfTwo := by
  intro s rd rs1 hlen
  exact ⟨encode_toNat (.shr rd rs1), givesValue_of_writeBack (exec_shr s rd rs1) (length_shr _ hlen) (value_shr _ hlen)⟩

/-! ## The laws of the shifts (rule R164), each from the value of the buffers -/

/-- Shifting up and down again zeroes the top `s` bits and keeps the rest. -/
theorem value_shr_shl {s : Nat} (hx : x.length = n) (hs : s ≤ 8 * n) :
    value (shr n (shl n x s) s) = value x % 2 ^ (8 * n - s) := by
  have hsplit : 2 ^ (8 * n) = 2 ^ (8 * n - s) * 2 ^ s := by rw [← Nat.pow_add, Nat.sub_add_cancel hs]
  rw [value_shr s (length_shl s hx), value_shl s hx, hsplit, Nat.mul_mod_mul_right,
    Nat.mul_div_cancel _ (Nat.two_pow_pos s)]

/-- Shifting down and up again zeroes the low `s` bits and keeps the rest: nothing reaches the top, so nothing is lost there. -/
theorem value_shl_shr (s : Nat) (hx : x.length = n) : value (shl n (shr n x s) s) = value x - value x % 2 ^ s := by
  have hlt : value x / 2 ^ s * 2 ^ s < 2 ^ (8 * n) := (Nat.div_mul_le_self _ _).trans_lt (hx ▸ value_lt x)
  rw [value_shl s (length_shr s hx), value_shr s hx, Nat.mod_eq_of_lt hlt, Nat.div_mul_self_eq_mod_sub_self]

theorem shl_shl (s t : Nat) (hx : x.length = n) : shl n (shl n x s) t = shl n x (s + t) := by
  have hs : (shl n x s).length = n := length_shl s hx
  refine value_injective ((length_shl t hs).trans (length_shl (s + t) hx).symm) ?_
  rw [value_shl t hs, value_shl s hx, value_shl (s + t) hx, Nat.mod_mul_mod, Nat.mul_assoc, ← Nat.pow_add]

theorem shr_shr (s t : Nat) (hx : x.length = n) : shr n (shr n x s) t = shr n x (s + t) := by
  have hs : (shr n x s).length = n := length_shr s hx
  refine value_injective ((length_shr t hs).trans (length_shr (s + t) hx).symm) ?_
  rw [value_shr t hs, value_shr s hx, value_shr (s + t) hx, Nat.div_div_eq_div_mul, ← Nat.pow_add]

/-- The top bit of byte 0 is carried into byte 1: as numbers, `128 * 2 = 256`, which from two bytes on is below `2^W`. -/
theorem shl_carries_into_next_byte (hn : 2 ≤ n) :
    shl n (0x80#8 :: zeroBuffer (n - 1)) 1 = 0x00#8 :: 0x01#8 :: zeroBuffer (n - 2) := by
  have hsource : (0x80#8 :: zeroBuffer (n - 1)).length = n := by
    simp only [List.length_cons, length_zeroBuffer]
    omega
  have hresult : (0x00#8 :: 0x01#8 :: zeroBuffer (n - 2)).length = n := by
    simp only [List.length_cons, length_zeroBuffer]
    omega
  have hfits : 2 ^ 8 < 2 ^ (8 * n) := Nat.pow_lt_pow_right (by decide) (by omega)
  refine value_injective ((length_shl 1 hsource).trans hresult.symm) ?_
  rw [value_shl 1 hsource]
  simpa [value_cons] using Nat.mod_eq_of_lt hfits

/-- Settles O41. -/
theorem shiftLaws : Obligations.ShiftLaws := by
  refine ⟨fun n x hn hx => ⟨fun s hs => value_shr_shl hx hs.le, shl_of_width_le x hn le_rfl, fun s _ => value_shl_shr s hx,
    fun s t => shl_shl s t hx, fun s t => shr_shr s t hx⟩, fun _ => shl_carries_into_next_byte, by decide⟩

end Sys2Proof.Machine
end

section
/-! PROOF. The rotates (spec/44_rotate.md): every bit moves around the register, its index taken modulo `W`; the laws of rule R183
are those of adding indices modulo `W`. -/

namespace Sys2Proof.Machine

variable {n m p : Nat} {x y : Buffer}

/-! ## A right shift of any buffer: it reads no byte from `N` on -/

theorem bitAt_copyLanes (hp : p < 8 * n) : bitAt (copyLanes n x) p = bitAt x p := by
  rw [bitAt, byteAt_copyLanes (by omega), bitAt]

theorem shrByte_copyLanes (n : Nat) (x : Buffer) (q r i : Nat) : shrByte n (copyLanes n x) q r i = shrByte n x q r i := by
  by_cases hout : n ≤ i + q
  · simp only [shrByte, hout, if_true]
  · rw [shrByte, shrByte, byteAt_copyLanes (by omega)]
    by_cases hcarry : i + q + 1 < n
    · rw [byteAt_copyLanes hcarry]
    · simp only [hcarry, if_false]

theorem shr_copyLanes {s : Nat} (h0 : s ≠ 0) : shr n (copyLanes n x) s = shr n x s := by
  simp only [shr, h0, if_false, shrByte_copyLanes]

/-- As `bitAt_shr`, for a buffer of any length. -/
theorem bitAt_shr_eq_and (x : Buffer) (s : Nat) (hp : p < 8 * n) :
    bitAt (shr n x s) p = (decide (p + s < 8 * n) && bitAt x (p + s)) := by
  by_cases h0 : s = 0
  · subst h0
    rw [shr_zero, Nat.add_zero, decide_eq_true hp, Bool.true_and]
  rw [← shr_copyLanes h0, bitAt_shr s (length_copyLanes ..) hp]
  by_cases hin : p + s < 8 * n
  · rw [bitAt_copyLanes hin, decide_eq_true hin, Bool.true_and]
  · rw [bitAt_of_length_le (by rw [length_copyLanes]; omega), decide_eq_false hin, Bool.false_and]

/-! ## The bits of the rotated buffers (rule R180) -/

/-- Bit `p` comes from `m` above it, around the register. -/
theorem bitAt_rotr (x : Buffer) (m : Nat) (hp : p < 8 * n) : bitAt (rotr n x m) p = bitAt x ((p + m) % (8 * n)) := by
  have hk : m % (8 * n) < 8 * n := Nat.mod_lt _ (by omega)
  rw [rotr, bitAt_orBuffers hp, bitAt_shr_eq_and _ _ hp, bitAt_shl _ _ hp, ← Nat.add_mod_mod]
  generalize m % (8 * n) = k at hk ⊢
  by_cases hwrap : p + k < 8 * n
  · have hlow : ¬ 8 * n - k ≤ p := by omega
    rw [Nat.mod_eq_of_lt hwrap, decide_eq_true hwrap, decide_eq_false hlow, Bool.true_and, Bool.false_and, Bool.or_false]
  · have hhigh : 8 * n - k ≤ p := by omega
    have hsource : (p + k) % (8 * n) = p - (8 * n - k) := by
      rw [Nat.mod_eq_sub_mod (by omega), Nat.mod_eq_of_lt (by omega)]
      omega
    rw [hsource, decide_eq_false hwrap, decide_eq_true hhigh, Bool.false_and, Bool.true_and, Bool.false_or]

/-- A left rotate is the right rotate by the complementary amount: the same two shifts. -/
theorem rotl_eq_rotr (hn : 0 < n) (x : Buffer) (m : Nat) : rotl n x m = rotr n x (8 * n - m % (8 * n)) := by
  have hk : m % (8 * n) < 8 * n := Nat.mod_lt _ (by omega)
  rw [rotl, rotr]
  generalize m % (8 * n) = k at hk ⊢
  obtain rfl | hpos := Nat.eq_zero_or_pos k
  · simp only [Nat.sub_zero, Nat.mod_self, shl_zero, shr_zero, shl_of_width_le x hn le_rfl, shr_of_width_le x hn le_rfl]
  · rw [Nat.mod_eq_of_lt (show 8 * n - k < 8 * n by omega), Nat.sub_sub_self hk.le, orBuffers_comm]

/-- The complementary amount completes a rotate to whole turns. -/
theorem add_add_complement_mod (hn : 0 < n) (p m : Nat) : (p + m + (8 * n - m % (8 * n))) % (8 * n) = p % (8 * n) := by
  have hk : m % (8 * n) < 8 * n := Nat.mod_lt _ (by omega)
  have hturns : m % (8 * n) + 8 * n * (m / (8 * n)) = m := Nat.mod_add_div _ _
  have hsum : p + m + (8 * n - m % (8 * n)) = p + 8 * n + 8 * n * (m / (8 * n)) := by omega
  rw [hsum, Nat.add_mul_mod_self_left, Nat.add_mod_right]

/-- Bit `p` goes `m` up, around the register. -/
theorem bitAt_rotl (hn : 0 < n) (x : Buffer) (m p : Nat) :
    bitAt (rotl n x m) ((p + m) % (8 * n)) = bitAt x (p % (8 * n)) := by
  rw [rotl_eq_rotr hn, bitAt_rotr _ _ (Nat.mod_lt _ (by omega)), Nat.mod_add_mod, add_add_complement_mod hn]

/-! ## The commands ROL and ROR (rules R181, R182) -/

/-- Settles O42. -/
theorem rotatesMoveEveryBitAroundTheRegister : Obligations.RotatesMoveEveryBitAroundTheRegister := by
  intro s rd rs1
  refine ⟨encode_toNat (.rol rd rs1), encode_toNat (.ror rd rs1),
    ⟨_, exec_rol s rd rs1, writesOnly_writeBack s rd _, ?_⟩,
    givesBits_of_writeBack (exec_ror s rd rs1) (length_rotr ..) fun p hp => ?_⟩
  · rw [State.writeBack_reg_self]
    refine ⟨length_rotl .., fun p hp => ?_⟩
    have hmoved := bitAt_rotl s.cfg.n_pos (s.reg rs1) (amountOf s.cmd) p
    rw [Nat.mod_eq_of_lt (show p < 8 * s.cfg.n from hp)] at hmoved
    rw [Nat.add_mod_mod]
    exact hmoved
  · rw [Nat.add_mod_mod]
    exact bitAt_rotr _ _ hp

/-! ## The laws of the rotates (rule R183) -/

/-- Adding `m` modulo `W` reaches every bit index, so buffers that agree there are equal. -/
theorem buffer_ext_rotated_bits (hn : 0 < n) (hx : x.length = n) (hy : y.length = n) (m : Nat)
    (h : ∀ p, bitAt x ((p + m) % (8 * n)) = bitAt y ((p + m) % (8 * n))) : x = y := by
  refine buffer_ext_bits (hx.trans hy.symm) fun q hq => ?_
  rw [hx] at hq
  have hreached := h (q + (8 * n - m % (8 * n)))
  rwa [Nat.add_right_comm, add_add_complement_mod hn, Nat.mod_eq_of_lt hq] at hreached

theorem rotr_rotl (hn : 0 < n) (hx : x.length = n) (m : Nat) : rotr n (rotl n x m) m = x := by
  refine buffer_ext_bits ((length_rotr ..).trans hx.symm) fun p hp => ?_
  rw [length_rotr] at hp
  rw [bitAt_rotr _ _ hp, bitAt_rotl hn, Nat.mod_eq_of_lt hp]

theorem rotl_rotr (hn : 0 < n) (hx : x.length = n) (m : Nat) : rotl n (rotr n x m) m = x := by
  refine buffer_ext_rotated_bits hn (length_rotl ..) hx m fun p => ?_
  rw [bitAt_rotl hn, bitAt_rotr _ _ (Nat.mod_lt _ (by omega)), Nat.mod_add_mod]

theorem rotl_width (hn : 0 < n) (hx : x.length = n) : rotl n x (8 * n) = x := by
  refine buffer_ext_rotated_bits hn (length_rotl ..) hx (8 * n) fun p => ?_
  rw [bitAt_rotl hn, Nat.add_mod_right]

theorem rotr_width (hn : 0 < n) (hx : x.length = n) : rotr n x (8 * n) = x := by
  have hundone := rotr_rotl hn hx (8 * n)
  rwa [rotl_width hn hx] at hundone

/-- A rotate uses its amount modulo `W` only. -/
theorem rotl_congr {k : Nat} (x : Buffer) (h : m % (8 * n) = k % (8 * n)) : rotl n x m = rotl n x k := by
  rw [rotl, rotl, h]

theorem rotl_rotl (hn : 0 < n) (x : Buffer) (m k : Nat) : rotl n (rotl n x m) k = rotl n x (m + k) := by
  refine buffer_ext_rotated_bits hn (length_rotl ..) (length_rotl ..) (m + k) fun p => ?_
  rw [bitAt_rotl hn, ← Nat.add_assoc, bitAt_rotl hn, bitAt_rotl hn]

theorem rotr_eq_rotl (hn : 0 < n) (x : Buffer) (m : Nat) : rotr n x m = rotl n x (8 * n - m % (8 * n)) := by
  refine buffer_ext_bits ((length_rotr ..).trans (length_rotl ..).symm) fun p hp => ?_
  rw [length_rotr] at hp
  have hmoved := bitAt_rotl hn x (8 * n - m % (8 * n)) (p + m)
  rw [add_add_complement_mod hn, Nat.mod_eq_of_lt hp] at hmoved
  rw [bitAt_rotr _ _ hp, hmoved]

/-- A function of period `W` is true as often in any `W` places in a row as in the first `W`. -/
theorem countP_range_shift {f : Nat → Bool} {w : Nat} (hf : Function.Periodic f w) (m : Nat) :
    (List.range w).countP (fun p => f (p + m)) = (List.range w).countP f := by
  have hfirst : (List.range (m + w)).countP f = (List.range m).countP f + (List.range w).countP (fun p => f (p + m)) := by
    rw [List.range_add, List.countP_append, List.countP_map]
    simp only [Function.comp_def, Nat.add_comm m]
  have hlast : (List.range (w + m)).countP f = (List.range w).countP f + (List.range m).countP f := by
    rw [List.range_add, List.countP_append, List.countP_map]
    simp only [Function.comp_def, Nat.add_comm w, hf _]
  rw [Nat.add_comm w] at hlast
  omega

theorem popCount_rotr (n : Nat) (x : Buffer) (m : Nat) : popCount n (rotr n x m) = popCount n x := by
  have hperiodic : Function.Periodic (fun p => bitAt x (p % (8 * n))) (8 * n) := fun p => by
    simp only [Nat.add_mod_right]
  rw [popCount_eq_countP_of_bits fun _ hp => bitAt_rotr x m hp, countP_range_shift hperiodic,
    ← popCount_eq_countP_of_bits fun p hp => by rw [Nat.mod_eq_of_lt hp]]

theorem popCount_rotl (hn : 0 < n) (x : Buffer) (m : Nat) : popCount n (rotl n x m) = popCount n x := by
  rw [rotl_eq_rotr hn, popCount_rotr]

/-- Settles O43. -/
theorem rotateLaws : Obligations.RotateLaws := by
  intro n x hn hx
  have hcompose (m k : Nat) : rotl n (rotl n x m) k = rotl n x (m % (8 * n) + k % (8 * n)) :=
    (rotl_rotl hn x m k).trans (rotl_congr x (Nat.add_mod ..))
  exact ⟨fun m => ⟨rotr_rotl hn hx m, rotl_rotr hn hx m⟩, rotl_width hn hx, rotr_width hn hx, hcompose,
    fun m => rotr_eq_rotl hn x m, fun m => ⟨popCount_rotl hn x m, popCount_rotr n x m⟩⟩

end Sys2Proof.Machine
end

section
/-! PROOF. The bit commands (spec/45_bit_mutation.md): a mutator applies one function to one bit and leaves the other bits, so what
it gives, what TSTBIT answers after it and what it does to the count all follow from that; TSTBIT and POPCNT only read. -/

namespace Sys2Proof.Machine

variable {n p q : Nat} {x y : Buffer} {g : Bool → Bool}

/-! ## The mutated buffers by bits (rules R191 to R193) -/

/-- Below `W`, `y` is `x` with `g` applied to bit `p` and every other bit kept. From `W` on there is no bit `p` to change. -/
def ChangesBit (n p : Nat) (g : Bool → Bool) (x y : Buffer) : Prop :=
  ∀ q < 8 * n, bitAt y q = if q = p then g (bitAt x q) else bitAt x q

theorem getLsbD_bitMask (p j : Nat) : (bitMask p).getLsbD j = decide (j = p % 8) := by
  rw [bitMask, ← BitVec.twoPow_eq, BitVec.getLsbD_twoPow, decide_eq_true (Nat.mod_lt p (by decide)), Bool.true_and]
  exact decide_eq_decide.mpr eq_comm

/-- A function of bytes that works on bit `p mod 8` alone changes bit `p` of a buffer and no other. -/
theorem mutateBit_changesBit {f : Byte → Byte} (hx : x.length = n)
    (hf : ∀ v : Byte, ∀ j < 8, (f v).getLsbD j = if j = p % 8 then g (v.getLsbD j) else v.getLsbD j) :
    ChangesBit n p g x (mutateBit n x p f) := by
  intro q hq
  by_cases hp : p < 8 * n
  · rw [mutateBit_in_range x f hp, bitAt, byteAt_setByte, bitAt]
    by_cases hbyte : q / 8 = p / 8
    · have hin : p / 8 < x.length := by omega
      have hbit : q % 8 = p % 8 ↔ q = p := by omega
      rw [if_pos ⟨hbyte, hin⟩, hf _ _ (Nat.mod_lt q (by decide)), hbyte]
      simp only [hbit]
    · have hne : q ≠ p := fun h => hbyte (by rw [h])
      rw [if_neg fun ⟨h, _⟩ => hbyte h, if_neg hne]
  · have hne : q ≠ p := by omega
    rw [mutateBit_out_of_range x f (Nat.not_lt.mp hp), if_neg hne]

theorem setBit_changesBit (hx : x.length = n) : ChangesBit n p (fun _ => true) x (setBit n x p) :=
  mutateBit_changesBit hx fun v j _ => by
    rw [BitVec.getLsbD_or, getLsbD_bitMask]
    by_cases h : j = p % 8 <;> simp [h]

theorem clearBit_changesBit (hx : x.length = n) : ChangesBit n p (fun _ => false) x (clearBit n x p) :=
  mutateBit_changesBit hx fun v j hj => by
    rw [BitVec.getLsbD_and, BitVec.getLsbD_not, getLsbD_bitMask]
    by_cases h : j = p % 8 <;> simp [h, hj]

theorem toggleBit_changesBit (hx : x.length = n) : ChangesBit n p (fun v => !v) x (toggleBit n x p) :=
  mutateBit_changesBit hx fun v j _ => by
    rw [BitVec.getLsbD_xor, getLsbD_bitMask]
    by_cases h : j = p % 8 <;> simp [h]

theorem setBit_out_of_range (x : Buffer) (h : 8 * n ≤ p) : setBit n x p = x := mutateBit_out_of_range x _ h

theorem clearBit_out_of_range (x : Buffer) (h : 8 * n ≤ p) : clearBit n x p = x := mutateBit_out_of_range x _ h

theorem toggleBit_out_of_range (x : Buffer) (h : 8 * n ≤ p) : toggleBit n x p = x := mutateBit_out_of_range x _ h

/-! ## The commands (rules R190 to R195) -/

/-- Settles O44. -/
theorem bitMutatorsChangeOneBitOrNone : Obligations.BitMutatorsChangeOneBitOrNone := by
  intro s rd hlen
  have hset := (length_setBit s.cfg.n (s.reg rd) (amountOf s.cmd)).trans hlen
  have hclear := (length_clearBit s.cfg.n (s.reg rd) (amountOf s.cmd)).trans hlen
  have htoggle := (length_toggleBit s.cfg.n (s.reg rd) (amountOf s.cmd)).trans hlen
  refine ⟨encode_toNat (.setbit rd), encode_toNat (.clrbit rd), encode_toNat (.tglbit rd), ?_, ?_, ?_,
    fun hout => ⟨?_, ?_, ?_⟩⟩
  · exact givesBits_of_writeBack (exec_setbit s rd) hset (setBit_changesBit hlen)
  · exact givesBits_of_writeBack (exec_clrbit s rd) hclear (clearBit_changesBit hlen)
  · exact givesBits_of_writeBack (exec_tglbit s rd) htoggle (toggleBit_changesBit hlen)
  · exact givesBytes_of_writeBack (exec_setbit s rd) hset fun _ _ => congrArg (byteAt · _) (setBit_out_of_range _ hout)
  · exact givesBytes_of_writeBack (exec_clrbit s rd) hclear fun _ _ => congrArg (byteAt · _) (clearBit_out_of_range _ hout)
  · exact givesBytes_of_writeBack (exec_tglbit s rd) htoggle fun _ _ => congrArg (byteAt · _) (toggleBit_out_of_range _ hout)

/-- Settles O45. -/
theorem tstbitAnswersTheBitOrZero : Obligations.TstbitAnswersTheBitOrZero := by
  intro s rs1
  have hanswer := givesScalar_of_returnScalar (exec_tstbit s rs1)
  rw [truth_toNat, amountOf] at hanswer
  refine ⟨encode_toNat (.tstbit rs1), fun hin => ?_, fun hout => ?_⟩
  · rwa [testBit_in_range _ hin] at hanswer
  · rwa [testBit_out_of_range _ hout] at hanswer

theorem popCount_zeroBuffer (n : Nat) : popCount n (zeroBuffer n) = 0 := by
  rw [popCount_eq_countP_of_bits fun p _ => bitAt_zeroBuffer n p, List.countP_false, Function.const_apply]

theorem bitAt_onesBuffer (hp : p < 8 * n) : bitAt (onesBuffer n) p = true := by
  have hbit : p % 8 < 8 := Nat.mod_lt p (by decide)
  have hones : (0xFF#8 : Byte) = BitVec.allOnes 8 := by decide
  rw [onesBuffer, bitAt_build _ hp, hones, BitVec.getLsbD_allOnes, decide_eq_true hbit]

theorem popCount_onesBuffer (n : Nat) : popCount n (onesBuffer n) = 8 * n := by
  rw [popCount_eq_countP_of_bits fun _ => bitAt_onesBuffer, List.countP_true, List.length_range]

/-- Settles O46: `N` is below `2^32`, so the count of at most `8*N` bits fits the scalar result. -/
theorem popcntCountsTheOneBits : Obligations.PopcntCountsTheOneBits := by
  refine ⟨fun s rs1 => ⟨encode_toNat (.popcnt rs1), ?_⟩, fun n => ⟨popCount_zeroBuffer n, popCount_onesBuffer n⟩⟩
  have hfits : popCount s.cfg.n (s.reg rs1) < 2 ^ 64 := by
    have hle := popCount_le s.cfg.n (s.reg rs1)
    have hn := s.cfg.n_lt
    omega
  have hanswer := givesScalar_of_returnScalar (exec_popcnt s rs1)
  rwa [BitVec.toNat_ofNat, Nat.mod_eq_of_lt hfits, popCount_eq_countP] at hanswer

/-! ## The laws of the bit commands (rule R196), each from the bit that changes -/

theorem ChangesBit.testBit_same (h : ChangesBit n p g x y) (hp : p < 8 * n) : testBit n y p = g (testBit n x p) := by
  rw [testBit_in_range y hp, testBit_in_range x hp, h p hp, if_pos rfl]

theorem ChangesBit.testBit_other (h : ChangesBit n p g x y) (hq : q ≠ p) : testBit n y q = testBit n x q := by
  by_cases hin : q < 8 * n
  · rw [testBit_in_range y hin, testBit_in_range x hin, h q hin, if_neg hq]
  · rw [testBit_out_of_range y (Nat.not_lt.mp hin), testBit_out_of_range x (Nat.not_lt.mp hin)]

/-- Two tests that agree on a list except at one member count alike but for that member. -/
theorem countP_add_toNat_of_agree_except {α : Type} [DecidableEq α] {f f' : α → Bool} {l : List α} {a : α} (ha : a ∈ l)
    (hl : l.Nodup) (h : ∀ b ∈ l, b ≠ a → f b = f' b) : l.countP f + (f' a).toNat = l.countP f' + (f a).toNat := by
  have hrest : (l.erase a).countP f = (l.erase a).countP f' :=
    List.countP_congr fun b hb => by
      obtain ⟨hne, hmem⟩ := hl.mem_erase_iff.mp hb
      rw [h b hmem hne]
  rw [(List.perm_cons_erase ha).countP_eq, (List.perm_cons_erase ha).countP_eq, List.countP_cons, List.countP_cons, hrest]
  simp only [Bool.toNat, cond_eq_ite]
  exact Nat.add_right_comm ..

/-- The count changes by what the one bit counts for. -/
theorem ChangesBit.popCount_add (h : ChangesBit n p g x y) (hp : p < 8 * n) :
    popCount n y + (testBit n x p).toNat = popCount n x + (g (testBit n x p)).toNat := by
  rw [← h.testBit_same hp, testBit_in_range y hp, testBit_in_range x hp, popCount_eq_countP, popCount_eq_countP]
  refine countP_add_toNat_of_agree_except (List.mem_range.mpr hp) List.nodup_range fun q hq hne => ?_
  rw [h q (List.mem_range.mp hq), if_neg hne]

/-- The only one bit moves to the next index, across a byte boundary too, or out at the top. -/
theorem shl_setBit_zeroBuffer (n p : Nat) : shl n (setBit n (zeroBuffer n) p) 1 = setBit n (zeroBuffer n) (p + 1) := by
  have hzero : (zeroBuffer n).length = n := length_zeroBuffer n
  have hlen (k : Nat) : (setBit n (zeroBuffer n) k).length = n := (length_setBit ..).trans hzero
  refine buffer_ext_bits ((length_shl 1 (hlen p)).trans (hlen (p + 1)).symm) fun q hq => ?_
  rw [length_shl 1 (hlen p)] at hq
  rw [bitAt_shl _ 1 hq, setBit_changesBit hzero (q - 1) (by omega), setBit_changesBit hzero q hq, bitAt_zeroBuffer,
    bitAt_zeroBuffer]
  cases q with
  | zero => simp
  | succ k => simp

/-- Settles O47. -/
theorem bitLevelLaws : Obligations.BitLevelLaws := by
  refine ⟨fun n x p hx => ⟨fun hp => ?_, fun hout => ?_⟩, by decide, fun n hn => ?_⟩
  · have hset := setBit_changesBit (p := p) hx
    have hclear := clearBit_changesBit (p := p) hx
    have htoggle := toggleBit_changesBit (p := p) hx
    have hcountSet := hset.popCount_add hp
    have hcountClear := hclear.popCount_add hp
    have hcountToggle := htoggle.popCount_add hp
    refine ⟨hset.testBit_same hp, hclear.testBit_same hp, htoggle.testBit_same hp,
      fun q hq => ⟨hset.testBit_other hq, hclear.testBit_other hq, htoggle.testBit_other hq⟩, ?_⟩
    cases hbit : testBit n x p with
    | false =>
      simp only [hbit, Bool.toNat_false, Bool.not_false, Bool.toNat_true] at hcountSet hcountClear hcountToggle
      exact ⟨hcountSet, hcountClear, .inl hcountToggle⟩
    | true =>
      simp only [hbit, Bool.toNat_true, Bool.not_true, Bool.toNat_false] at hcountSet hcountClear hcountToggle
      exact ⟨Nat.add_right_cancel hcountSet, hcountClear, .inr hcountToggle⟩
  · exact ⟨setBit_out_of_range x hout, clearBit_out_of_range x hout, toggleBit_out_of_range x hout⟩
  · have hp : 8 < 8 * n := by omega
    have hset := setBit_changesBit (p := 8) (length_zeroBuffer n)
    have hcount := hset.popCount_add hp
    rw [shl_setBit_zeroBuffer]
    rw [testBit_in_range _ hp, bitAt_zeroBuffer, popCount_zeroBuffer] at hcount
    exact ⟨hset.testBit_same hp, hcount⟩

end Sys2Proof.Machine
end

section
/-! PROOF. Integer extraction (spec/46_integer.md): TOINT answers the register modulo the width read, and with LDI it makes two round
trips. From the integer it keeps the number modulo that width; from the register it keeps the first bytes, as LDP does. -/

namespace Sys2Proof.Machine

variable {s t : State} {n : Nat} {sz : Width} {x : Buffer}

/-! ## TOINT (rule R210) -/

/-- Settles O48. -/
theorem tointAnswersTheLowBytes : Obligations.TointAnswersTheLowBytes :=
  fun _ rs1 sz => ⟨encode_toNat (.toint rs1 sz), givesScalar_toint rs1 sz⟩

/-! ## From the integer to the register and back (rule R211) -/

/-- LDI and TOINT of one width cut the integer at the same place. -/
theorem givesScalar_toint_after_ldi {rd : Reg} (hcfg : t.cfg = s.cfg)
    (hvalue : value (t.reg rd) = s.cmd.opnd.toNat % 2 ^ (8 * min sz.bytes s.cfg.n)) :
    GivesScalar (.toint rd sz) t (s.cmd.opnd.toNat % 2 ^ (8 * min sz.bytes s.cfg.n)) := by
  have hread := givesScalar_toint (s := t) rd sz
  rwa [hcfg, hvalue, Nat.mod_mod] at hread

/-! ## From the register to the integer and back (rule R211) -/

/-- The bytes of the integer read back are the bytes of the buffer. -/
theorem scalarByte_toInt {i : Nat} (hi : i < min sz.bytes n) : scalarByte (toInt n sz.bytes x) i = byteAt x i := by
  apply BitVec.eq_of_toNat_eq
  rw [scalarByte_eq, BitVec.toNat_ofNat, toInt_toNat, digits_mod_two_pow _ (by omega), byteAt_toNat]

/-- The round trip keeps the first `min(sz, N)` bytes and clears the rest. -/
theorem fromInt_toInt : fromInt n sz.bytes (toInt n sz.bytes x) = copyPrefix n sz.bytes x := by
  refine build_congr fun i _ => ?_
  by_cases hi : i < min sz.bytes n
  · rw [if_pos hi, if_pos hi, scalarByte_toInt hi]
  · rw [if_neg hi, if_neg hi]

/-- A buffer is its own prefix exactly when the prefix covers it or nothing but zeros follows. -/
theorem copyPrefix_eq_self_iff {len : Nat} (hx : x.length = n) :
    copyPrefix n len x = x ↔ n ≤ len ∨ ∀ i, len ≤ i → i < n → byteAt x i = 0x00#8 := by
  constructor
  · refine fun heq => .inr fun i hlen hi => ?_
    have hcut : ¬ i < min len n := by omega
    rw [← heq, byteAt_copyPrefix hi, if_neg hcut]
    rfl
  · refine fun hrest => buffer_ext ((length_copyPrefix ..).trans hx.symm) fun i hi => ?_
    rw [length_copyPrefix] at hi
    rw [byteAt_copyPrefix hi]
    by_cases hin : i < min len n
    · rw [if_pos hin]
    · rw [if_neg hin]
      obtain hcover | hzero := hrest
      · omega
      · exact (hzero i (by omega) hi).symm

/-- Settles O49. -/
theorem integerRoundTrip : Obligations.IntegerRoundTrip := by
  refine ⟨fun s rd sz hv => ?_, fun s rd rs1 sz hlen => ?_, by decide⟩
  · obtain ⟨t, hldi, ⟨hcfg, -⟩, -, hvalue⟩ := givesValue_ldi s rd sz
    have hback := givesScalar_toint_after_ldi hcfg hvalue
    refine ⟨t, hldi, fun hfits => ?_, fun hwide => ?_⟩
    · rwa [Nat.min_eq_left hfits, Nat.mod_eq_of_lt hv] at hback
    · rwa [Nat.min_eq_right hwide.le] at hback
  · refine ⟨_, _, _, exec_toint s rs1 sz, rfl, exec_ldi _ rd sz, ?_⟩
    rw [State.writeBack_reg_self, State.returnScalar_cfg, fromInt_toInt]
    exact copyPrefix_eq_self_iff hlen

end Sys2Proof.Machine
end

section
/-! PROOF. Byte reversal and conversion (spec/47_endian.md): `conv` is the identity on the host's own order and `rev` on the foreign
one, so each command is said for these two cases; `rev` undoes itself and moves whole bytes, which gives the laws of rule R236. -/

namespace Sys2Proof.Machine

variable {i : Instr} {s t : State} {rd rs1 : Reg} {n : Nat} {x y : Buffer} {o : OrderName} {c : Config} {w : CtlWord}

/-! ## The reversal (rule R220) -/

theorem bitAt_rev {k j : Nat} (hk : k < n) (hj : j < 8) : bitAt (rev n x) (8 * k + j) = bitAt x (8 * (n - 1 - k) + j) := by
  rw [bitAt_eq_byteAt _ _ _ hj, bitAt_eq_byteAt _ _ _ hj, byteAt_rev hk]

theorem rev_rev (hx : x.length = n) : rev n (rev n x) = x := by
  refine build_eq_of_byteAt hx fun k hk => ?_
  have hback : n - 1 - (n - 1 - k) = k := by omega
  rw [byteAt_rev (by omega), hback]

theorem rev_one (hx : x.length = 1) : rev 1 x = x :=
  build_eq_of_byteAt hx fun k hk => by rw [Nat.lt_one_iff.mp hk]

/-- The middle one of an odd number of bytes stays in place. -/
theorem byteAt_rev_middle (hn : n % 2 = 1) : byteAt (rev n x) ((n - 1) / 2) = byteAt x ((n - 1) / 2) := by
  have hmiddle : n - 1 - (n - 1) / 2 = (n - 1) / 2 := by omega
  rw [byteAt_rev (by omega), hmiddle]

/-- A command that writes a reversed buffer gives its bytes from the other end. -/
theorem givesBytes_of_writeBack_rev (h : exec i s = .next (s.writeBack rd (rev s.cfg.n y))) :
    GivesBytes i s rd (fun k => byteAt y (s.cfg.n - 1 - k)) :=
  givesBytes_of_writeBack h (length_rev _ _) fun _ hk => byteAt_rev hk

/-- Settles O50. -/
theorem revReversesTheBytes : Obligations.RevReversesTheBytes := by
  refine ⟨fun s rd rs1 => ⟨encode_toNat (.rev rd rs1), givesBytes_of_writeBack_rev (exec_rev s rd rs1)⟩, fun n x hx => ?_⟩
  refine ⟨fun i hi j hj => bitAt_rev hi hj, rev_rev hx, ?_, byteAt_rev_middle⟩
  rintro rfl
  exact rev_one hx

/-! ## The host's own order and the foreign one (rules R221, R222) -/

theorem resolve_eq_host_iff (host : Endian) (o : OrderName) :
    resolve host o = host ↔ o = .native ∨ (o = .little ∧ host = .little) ∨ (o = .big ∧ host = .big) := by
  cases o with
  | native => simp [resolve]
  | little | big => simp [resolve, eq_comm]

theorem resolve_ne_host_iff (host : Endian) (o : OrderName) :
    resolve host o ≠ host ↔ (o = .little ∧ host = .big) ∨ (o = .big ∧ host = .little) := by
  cases o with
  | native => simp [resolve]
  | little | big => cases host <;> decide

/-- A command that converts to or from the host's own order gives the bytes as they are. -/
theorem givesBytes_of_writeBack_conv_own (h : exec i s = .next (s.writeBack rd (conv s.cfg y o))) (hlen : y.length = s.cfg.n)
    (ho : resolve s.cfg.native o = s.cfg.native) : GivesBytes i s rd (byteAt y) := by
  rw [conv_native y ho] at h
  exact givesBytes_of_writeBack h hlen fun _ _ => rfl

/-- A command that converts to or from the foreign order gives the bytes from the other end. -/
theorem givesBytes_of_writeBack_conv_foreign (h : exec i s = .next (s.writeBack rd (conv s.cfg y o)))
    (ho : resolve s.cfg.native o ≠ s.cfg.native) : GivesBytes i s rd (fun k => byteAt y (s.cfg.n - 1 - k)) := by
  rw [conv_foreign y ho] at h
  exact givesBytes_of_writeBack_rev h

/-! ## The named conversions (rules R224 to R229) -/

theorem exec_little_conversion (s : State) (rd rs1 : Reg) :
    ∀ i ∈ [Instr.tole rd rs1, .fromle rd rs1], exec i s = .next (s.writeBack rd (conv s.cfg (s.reg rs1) .little)) := by
  simp [exec_tole, exec_fromle]

/-- Network order is big-endian (rules R226, R229). -/
theorem exec_big_conversion (s : State) (rd rs1 : Reg) :
    ∀ i ∈ [Instr.tobe rd rs1, .tonet rd rs1, .frombe rd rs1, .fromnet rd rs1],
      exec i s = .next (s.writeBack rd (conv s.cfg (s.reg rs1) .big)) := by
  simp [exec_tobe, exec_tonet, exec_frombe, exec_fromnet]

/-- Settles O51. -/
theorem namedConversionsReverseOnAForeignHost : Obligations.NamedConversionsReverseOnAForeignHost := by
  intro s rd rs1 hlen
  have hlittle := exec_little_conversion s rd rs1
  have hbig := exec_big_conversion s rd rs1
  refine ⟨encode_toNat (.tole rd rs1), encode_toNat (.tobe rd rs1), encode_toNat (.tonet rd rs1), encode_toNat (.fromle rd rs1),
    encode_toNat (.frombe rd rs1), encode_toNat (.fromnet rd rs1), fun host => ⟨fun i hi => ?_, fun i hi => ?_⟩,
    fun host => ⟨fun i hi => ?_, fun i hi => ?_⟩⟩
  · exact givesBytes_of_writeBack_conv_own (hlittle i hi) hlen host.symm
  · exact givesBytes_of_writeBack_conv_foreign (hbig i hi) (by simp [resolve, host])
  · exact givesBytes_of_writeBack_conv_foreign (hlittle i hi) (by simp [resolve, host])
  · exact givesBytes_of_writeBack_conv_own (hbig i hi) hlen host.symm

/-! ## The parameterised conversions (rules R230, R231) -/

/-- Item 3 of spec/30_encoding.md rule R72: a command that reads `ordc` is illegal with code 3 there. -/
theorem exists_decode_error_of_reservedOrder {op : BitVec 8} (hop : w.extractLsb' 0 8 = op)
    (hreads : [0x67, 0x68, 0x6B, 0x6C].contains op.toNat = true) (hord : w.extractLsb' 22 2 = 3#2) :
    ∃ e, decode w = .error e := by
  have hlow : w.toNat % 256 = op.toNat := (opcode_toNat w).symm.trans (congrArg BitVec.toNat hop)
  have hcode : (w.toNat / 2 ^ 22 % 4 == 3) = true := (reservedOrder_eq w).trans (beq_iff_eq.mpr hord)
  refine (illegalWord_iff w).mp ?_
  rw [illegalWord, hlow, hreads, hcode, Bool.and_self, Bool.or_true]

/-- `native` names the host's own order on both hosts. -/
theorem exec_toend_native (s : State) (rd rs1 : Reg) : exec (.toend rd rs1 .native) s = exec (.mov rd rs1) s := by
  rw [exec_toend, conv_native _ rfl, exec_mov]

/-- Settles O52. -/
theorem parameterisedConversionsFollowTheirOrder : Obligations.ParameterisedConversionsFollowTheirOrder := by
  refine ⟨fun s rd rs1 hlen => ⟨fun o => ?_, rfl, rfl, exec_toend_native s rd rs1, fun o i hi => ?_⟩, fun w hop hord => ?_⟩
  · exact ⟨encode_toNat (.toend rd rs1 o), encode_toNat (.fromend rd rs1 o),
      (exec_fromend s rd rs1 o).trans (exec_toend s rd rs1 o).symm⟩
  · have hexec : exec i s = .next (s.writeBack rd (conv s.cfg (s.reg rs1) o)) := by
      revert i
      simp [exec_toend, exec_fromend]
    simp only [← resolve_eq_host_iff]
    by_cases ho : resolve s.cfg.native o = s.cfg.native
    · simp only [if_pos ho]
      exact givesBytes_of_writeBack_conv_own hexec hlen ho
    · simp only [if_neg ho]
      exact givesBytes_of_writeBack_conv_foreign hexec ho
  · obtain hop | hop := hop
    · exact exists_decode_error_of_reservedOrder hop rfl hord
    · exact exists_decode_error_of_reservedOrder hop rfl hord

/-! ## Normalisation in place (rules R232, R233) -/

theorem normalise_own {e : Endian} (h : s.cfg.native = e) (rd : Reg) : s.normalise rd e = s.respond (plainResponse s.cfg) :=
  if_pos h

theorem normalise_foreign {e : Endian} (h : s.cfg.native ≠ e) (rd : Reg) :
    s.normalise rd e = s.writeBack rd (rev s.cfg.n (s.reg rd)) :=
  if_neg h

/-- Where no conversion is due, writing the register back to itself writes nothing. -/
theorem normalise_eq_writeBack_conv (s : State) (rd : Reg) (o : OrderName) :
    s.normalise rd (resolve s.cfg.native o) = s.writeBack rd (conv s.cfg (s.reg rd) o) := by
  by_cases ho : resolve s.cfg.native o = s.cfg.native
  · rw [normalise_own ho.symm, conv_native _ ho, State.writeBack, State.setReg_same]
  · rw [normalise_foreign (Ne.symm ho), conv_foreign _ ho]

theorem exec_normalise_own {e : Endian} (h : exec i s = .next (s.normalise rd e)) (he : s.cfg.native = e) :
    ∃ t, exec i s = .next t ∧ WritesNothing s t { status := .ok, res := 0, dout := zeroBuffer s.cfg.n } := by
  rw [normalise_own he] at h
  exact ⟨_, h, rfl⟩

theorem givesBytes_of_normalise_foreign {e : Endian} (h : exec i s = .next (s.normalise rd e)) (he : s.cfg.native ≠ e) :
    GivesBytes i s rd (fun k => byteAt (s.reg rd) (s.cfg.n - 1 - k)) := by
  rw [normalise_foreign he] at h
  exact givesBytes_of_writeBack_rev h

/-- Settles O53. -/
theorem normalisationIsConversionInPlace : Obligations.NormalisationIsConversionInPlace := by
  intro s rd
  have hle := exec_normle s rd
  have hbe := exec_normbe s rd
  refine ⟨encode_toNat (.normle rd), encode_toNat (.normbe rd), ?_, ?_, fun host => ⟨?_, ?_⟩, fun host => ⟨?_, ?_⟩⟩
  · exact hle.trans (congrArg Host.Outcome.next (normalise_eq_writeBack_conv s rd .little))
  · exact hbe.trans (congrArg Host.Outcome.next (normalise_eq_writeBack_conv s rd .big))
  · exact exec_normalise_own hle host
  · exact givesBytes_of_normalise_foreign hbe (by simp [host])
  · exact exec_normalise_own hbe host
  · exact givesBytes_of_normalise_foreign hle (by simp [host])

/-! ## Integers in a given order (rules R234, R235) -/

/-- The low `m` bytes of a buffer, each at its place, add up to its value modulo `2^(8*m)`. -/
theorem sum_bytes_eq_value_mod (x : Buffer) (m : Nat) :
    ((List.range m).map fun k => (byteAt x k).toNat * 2 ^ (8 * k)).sum = value x % 2 ^ (8 * m) := by
  induction m with
  | zero => simp [Nat.mod_one]
  | succ m ih =>
    rw [List.range_succ, List.map_append, List.sum_append, ih, List.map_singleton, List.sum_singleton, byteAt_toNat, Nat.mul_succ,
      Nat.pow_add, Nat.mod_mul, Nat.mul_comm (2 ^ (8 * m))]

theorem sum_reversed_bytes_eq_value_mod (x : Buffer) {m : Nat} (hm : m ≤ n) :
    ((List.range m).map fun k => (byteAt x (n - 1 - k)).toNat * 2 ^ (8 * k)).sum = value (rev n x) % 2 ^ (8 * m) := by
  rw [← sum_bytes_eq_value_mod]
  refine congrArg List.sum (List.map_congr_left fun k hk => ?_)
  rw [byteAt_rev ((List.mem_range.mp hk).trans_le hm)]

/-- TOINTE reads the low bytes of the converted register. -/
theorem givesScalar_tointe (s : State) (rs1 : Reg) (sz : Width) (o : OrderName) :
    GivesScalar (.tointe rs1 sz o) s (value (conv s.cfg (s.reg rs1) o) % 2 ^ (8 * min sz.bytes s.cfg.n)) := by
  have hread := givesScalar_of_returnScalar (exec_tointe s rs1 sz o)
  rwa [toInt_toNat] at hread

/-- Settles O54. -/
theorem tointeReadsTheOtherEndOnAForeignOrder : Obligations.TointeReadsTheOtherEndOnAForeignOrder := by
  refine ⟨fun w hop hord => exists_decode_error_of_reservedOrder hop rfl hord, fun s rs1 sz o => ?_⟩
  have hread := givesScalar_tointe s rs1 sz o
  refine ⟨encode_toNat (.tointe rs1 sz o), fun hown => ?_, fun hforeign => ?_⟩
  · have ho := (resolve_eq_host_iff _ _).mpr hown
    rw [conv_native _ ho] at hread
    exact ⟨by rw [exec_tointe, conv_native _ ho, exec_toint], hread⟩
  · have ho := (resolve_ne_host_iff _ _).mpr hforeign
    rwa [conv_foreign _ ho, ← sum_reversed_bytes_eq_value_mod _ (Nat.min_le_right ..)] at hread

theorem GivesBytes.congr {f g : Nat → Byte} (h : GivesBytes i s rd f) (hfg : ∀ k < s.cfg.n, f k = g k) :
    GivesBytes i s rd g := by
  obtain ⟨t, hexec, hframe, hlen, hbytes⟩ := h
  exact ⟨t, hexec, hframe, hlen, fun k hk => (hbytes k hk).trans (hfg k hk)⟩

theorem byteAt_fromInt_eq_ofNat {sz k : Nat} (v : Scalar) (hk : k < n) :
    byteAt (fromInt n sz v) k = if k < min sz n then BitVec.ofNat 8 (v.toNat / 2 ^ (8 * k)) else 0x00#8 := by
  rw [byteAt_fromInt hk, scalarByte_eq]
  rfl

/-- Settles O55. -/
theorem ldieReversesTheWholeBufferOnAForeignOrder : Obligations.LdieReversesTheWholeBufferOnAForeignOrder := by
  refine ⟨fun w hop hord => exists_decode_error_of_reservedOrder hop rfl hord, fun s rd sz o => ?_⟩
  have hwrite := exec_ldie s rd sz o
  refine ⟨encode_toNat (.ldie rd sz o), fun hown => ?_, fun hforeign => ?_⟩
  · have ho := (resolve_eq_host_iff _ _).mpr hown
    exact ⟨by rw [exec_ldie, conv_native _ ho, exec_ldi],
      (givesBytes_of_writeBack_conv_own hwrite (length_fromInt ..) ho).congr fun k hk => byteAt_fromInt_eq_ofNat _ hk⟩
  · have hgives := givesBytes_of_writeBack_conv_foreign hwrite ((resolve_ne_host_iff _ _).mpr hforeign)
    exact hgives.congr fun k hk => byteAt_fromInt_eq_ofNat _ (by omega)

/-! ## The laws (rule R236) -/

theorem conv_conv (o : OrderName) (hx : x.length = c.n) : conv c (conv c x o) o = x := by
  by_cases ho : resolve c.native o = c.native
  · rw [conv_native _ ho, conv_native _ ho]
  · rw [conv_foreign _ ho, conv_foreign _ ho, rev_rev hx]

/-- Of the two orders one is the host's own, so converting to both reverses once. -/
theorem conv_conv_other_order (c : Config) (x : Buffer) :
    conv c (conv c x .big) .little = rev c.n x ∧ conv c (conv c x .little) .big = rev c.n x := by
  cases h : c.native <;> simp [conv, resolve, h]

theorem popCount_rev (n : Nat) (x : Buffer) : popCount n (rev n x) = popCount n x := by
  have hbytes : (List.range n).map (fun k => popcount8 (byteAt (rev n x) k)) =
      ((List.range n).map fun k => popcount8 (byteAt x k)).reverse := by
    rw [← List.map_reverse, List.range_eq_range', List.reverse_range', List.map_map, ← List.range_eq_range']
    refine List.map_congr_left fun k hk => ?_
    rw [byteAt_rev (List.mem_range.mp hk), Function.comp_apply, Nat.zero_add]
  rw [popCount, hbytes, List.sum_reverse, popCount]

theorem popCount_conv (c : Config) (x : Buffer) (o : OrderName) : popCount c.n (conv c x o) = popCount c.n x := by
  by_cases ho : resolve c.native o = c.native
  · rw [conv_native _ ho]
  · rw [conv_foreign _ ho, popCount_rev]

theorem equalBuffers_rev_of_equal (h : equalBuffers n x y = true) : equalBuffers n (rev n x) (rev n y) = true := by
  rw [equalBuffers_iff] at h ⊢
  intro k hk
  rw [byteAt_rev hk, byteAt_rev hk]
  exact h _ (by omega)

theorem equalBuffers_rev (hx : x.length = n) (hy : y.length = n) :
    equalBuffers n (rev n x) (rev n y) = equalBuffers n x y := by
  rw [Bool.eq_iff_iff]
  refine ⟨fun h => ?_, equalBuffers_rev_of_equal⟩
  have hback := equalBuffers_rev_of_equal h
  rwa [rev_rev hx, rev_rev hy] at hback

/-- LDIE and TOINTE of one order and width: the conversion is undone before the integer is read. -/
theorem givesScalar_tointe_after_ldie (s : State) (rd : Reg) (sz : Width) (o : OrderName) :
    GivesScalar (.tointe rd sz o) (s.writeBack rd (conv s.cfg (fromInt s.cfg.n sz.bytes s.cmd.opnd) o))
      (s.cmd.opnd.toNat % 2 ^ (8 * min sz.bytes s.cfg.n)) := by
  have hread := givesScalar_tointe (s.writeBack rd (conv s.cfg (fromInt s.cfg.n sz.bytes s.cmd.opnd) o)) rd sz o
  rwa [State.writeBack_reg_self, State.writeBack_cfg, conv_conv o (length_fromInt ..), value_fromInt, Nat.mod_mod] at hread

/-- Settles O56. -/
theorem endiannessLaws : Obligations.EndiannessLaws := by
  refine ⟨fun c x y hx hy => ?_, ⟨2, [1, 2], [2, 1], by decide⟩, fun s rd sz o hsz hopnd => ?_⟩
  · obtain ⟨hlittle, hbig⟩ := conv_conv_other_order c x
    exact ⟨rev_rev hx, fun o => conv_conv o hx, hlittle, hbig, popCount_rev c.n x, popCount_conv c x, equalBuffers_rev hx hy⟩
  · have hread := givesScalar_tointe_after_ldie s rd sz o
    rw [Nat.min_eq_left hsz, Nat.mod_eq_of_lt hopnd] at hread
    exact ⟨_, exec_ldie s rd sz o, hread⟩

end Sys2Proof.Machine
end

section
/-! PROOF. The exception, the faulted state and reset (spec/60_exceptions.md, spec/70_reset_and_hazards.md): each step of these is
one case of the step, and runs of commands are inductions on the list of commands. -/

namespace Sys2Proof.Machine

variable {s t : State} {c : Command} {rest : List HostEvent}

/-! ## Idle, reset and the exception (rules R303, R317, R331) -/

/-- Settles O13. -/
theorem idleStepKeepsTheState : Obligations.IdleStepKeepsTheState := fun _ => step_idle

/-- Settles O12: the engine's own state has its reset values, which depend on the straps only. -/
theorem resetTakesAnyStateToTheResetState : Obligations.ResetTakesAnyStateToTheResetState := by
  intro s rest h
  rw [step_reset h]
  rfl

/-- Settles O9. -/
theorem illegalCommandWritesTheFaultRecordOnly : Obligations.IllegalCommandWritesTheFaultRecordOnly := by
  intro s c rest e hf hh hd
  have raised : step s = .next ((s.accept c rest).raiseIllegal c.ctl) :=
    (step_command hh).trans (runSampled_illegal (s := s.accept c rest) hf hd)
  exact ⟨_, raised, rfl, rfl, rfl, rfl, fun _ => rfl, rfl, rfl, rfl, rfl, rfl, rfl⟩

/-! ## The faulted state (rules R304, R305) -/

theorem step_faulted_command (hf : s.flt = true) (hh : s.host = .command c :: rest) :
    step s = .next (s.accept c rest).reject :=
  (step_command hh).trans (runSampled_faulted (s := s.accept c rest) hf)

/-- Settles O11: an idle step and a rejected command leave the engine faulted. -/
theorem onlyResetLeavesTheFaultedState : Obligations.OnlyResetLeavesTheFaultedState := by
  intro s t h hf hleft
  obtain ⟨-, rfl⟩ | ⟨rest, hh, rfl⟩ | ⟨c, rest, hh, -⟩ := step_cases h
  · exact nomatch hf.symm.trans hleft
  · exact ⟨⟨rest, hh⟩, State.applyReset_reg s⟩
  · obtain rfl := Host.Outcome.next.inj ((step_faulted_command hf hh).symm.trans h)
    exact nomatch hf.symm.trans hleft

/-- Settles O10, by induction on the commands: rejecting one changes only the ports, so the next one is rejected too. -/
theorem faultedEngineRejectsEveryCommand : Obligations.FaultedEngineRejectsEveryCommand := by
  intro cs
  induction cs with
  | nil => exact fun s hf hh => ⟨s, rfl, rfl, hf, rfl, rfl, rfl, hh, (List.append_nil _).symm⟩
  | cons c cs ih =>
    intro s hf hh
    obtain ⟨t, hrun, hb, hflt, hcause, hfctl, hcfg, hhost, hsent⟩ := ih (s.accept c (cs.map .command)).reject hf rfl
    refine ⟨t, ?_, hb, hflt, hcause, hfctl, hcfg, hhost, ?_⟩
    · rw [List.length_cons, core_run_succ, step_faulted_command hf hh]
      exact hrun
    · rw [hsent, State.reject_sent, List.append_assoc]
      rfl

/-! ## Runs of legal commands (rule R346) -/

/-- On a working engine a legal command completes, unless it is an unchecked access out of range; the straps and the fault flag
stay. -/
theorem presentCommand_legal {i : Instr} (hf : s.flt = false) (hd : decode c.ctl = .ok i)
    (hrange : uncheckedAccess i = true → c.opnd.toNat < s.cfg.n) :
    ∃ t r, presentCommand s c = .next t ∧ t.flt = false ∧ t.cfg = s.cfg ∧ t.sent = s.sent ++ [r] ∧ r.status = .ok := by
  obtain ⟨t, r, hexec, hsent, hok⟩ := exec_completes_ok (s := s.accept c s.host) hrange
  have hrun : presentCommand s c = exec i (s.accept c s.host) := runSampled_legal (s := s.accept c s.host) hf hd
  exact ⟨t, r, hrun.trans hexec, (exec_flt hexec).trans hf, (exec_cfg hexec).trans (State.accept_cfg ..), hsent, hok⟩

/-- Settles O19, by induction on the commands. -/
theorem runsOfLegalCommandsEndWell : Obligations.RunsOfLegalCommandsEndWell := by
  intro cs
  induction cs with
  | nil => exact fun s hf _ => ⟨s, ⟨rfl, hf⟩, [], (List.append_nil _).symm, rfl, List.forall_mem_nil _⟩
  | cons c cs ih =>
    intro s hf hlegal
    obtain ⟨⟨i, hd, hrange⟩, hlegal⟩ := List.forall_mem_cons.mp hlegal
    obtain ⟨u, r, hfirst, hflt, hcfg, hsent, hok⟩ := presentCommand_legal hf hd hrange
    rw [← hcfg] at hlegal
    obtain ⟨t, ⟨hrun, hend⟩, rs, hrest, hlen, hoks⟩ := ih u hflt hlegal
    refine ⟨t, ⟨?_, hend⟩, r :: rs, ?_, congrArg Nat.succ hlen, List.forall_mem_cons.mpr ⟨hok, hoks⟩⟩
    · rw [presentAll_cons, hfirst]
      exact hrun
    · rw [hrest, hsent, List.append_assoc, List.singleton_append]

end Sys2Proof.Machine
end
